-- ==== Sys2Proof/Word.lean ====
section
/-! DEFINITION. The word types of the HB-4116's characters and counts, and the index types of its stations and pumps. -/

namespace Sys2Proof

/-- A line or service character: eight data bits, bit 0 least significant (chapter 11). -/
abbrev Byte := BitVec 8

/-- A 16-bit count that continues from 0 (the round count of R24, the realignment count of R27). -/
abbrev Word16 := BitVec 16

/-- A set of the four district flags, bit i standing for F<i> (R176, character 10). -/
abbrev FlagSet := BitVec 4

/-- A station number, 0 to 15. -/
abbrev Station := Fin 16

/-- A pump index, 0 to 3. -/
abbrev PumpIx := Fin 4

/-- An increase that saturates at `top` (00, Conventions, Quantities). -/
def satAdd (top n k : Nat) : Nat := min top (n + k)

end Sys2Proof
end

