-- ==== Sys2Proof/Config.lean ====
section
/-! DEFINITION. What the spec leaves open and the model leaves free: constants with no body. Each is applied to the plain
counter `free` of State, so that it may answer anew each time. -/

namespace Sys2Proof.Config

/-- Which of several events that are due at one instant is raised first: the answer is taken modulo the number of events due.
The spec allows either order (R10, R44, R87, R90, R92 and others). FREE VALUE, safe (log 3). -/
opaque tieBreak : Nat → Nat

/-- Whether, at a round end that accepts F1, the urgent stop reaches a pump before its run-feedback reading of R94.
The spec allows either order (R94). FREE VALUE, safe (log 8). -/
opaque stopBeforeReading : Nat → PumpIx → Bool

/-- Whether a round end that itself brings the change to PERIODIC also counts for the wait count of R136.
The spec does not say. FREE VALUE, safe (log 9). -/
opaque roundEndCountsAtChange : Nat → Bool

/-- How many counts of the output time base fall in one microsecond of the part's time base (R101 gives the period in counts
and no rate). FREE VALUE, safe (log 10). -/
opaque outputCounts : Nat → Nat

end Sys2Proof.Config
end

