-- ==== Sys2Proof/Syntax.lean ====
section
/-! DEFINITION. The commands of the HB-4116: one constructor of `Instr` for each row of spec/opcode_table.json, with the
operands that the row's rules need. A command that samples input pins carries their levels (log 5). -/

namespace Sys2Proof

/-- The two dike cables (R139). -/
inductive Cable where
  | a
  | b
  deriving DecidableEq, Repr

/-- The two probe groups (R121). -/
inductive ProbeGroup where
  | polder
  | outfall
  deriving DecidableEq, Repr

/-- The eleven levels a decoder reads at the middles of a character's bit cells, bit i being reading i (start, eight data
bits least significant first, parity, stop), 1 for released and 0 for driven (R140, R141). -/
abbrev Readings := BitVec 11

/-- What a cable returns in the place of a character the part sends: no start edge within 32 µs of the own start edge, or
the eleven readings of the returned character (R151). -/
inductive Returned where
  | noEdge
  | char (r : Readings)
  deriving DecidableEq, Repr

/-- The level of each cable at one instant, true for driven (R139, R152). -/
structure DrivenLevels where
  onA : Bool
  onB : Bool
  deriving DecidableEq, Repr

/-- The levels of the sampled input pins, bit i belonging to flag or pump i (00, Pin summary). -/
structure Inputs where
  /-- FLAG0 to FLAG3, a set bit for asserted. -/
  flags : FlagSet
  /-- RUN_FB0 to RUN_FB3, a set bit for asserted. -/
  runFb : BitVec 4
  /-- PRIME_SENSE0 to PRIME_SENSE3, a set bit for asserted. -/
  primeSense : BitVec 4
  deriving DecidableEq, Repr

/-- One level, 0 to 7, for each of the eight strap pins, in the order of R157. -/
structure StrapLevels where
  stnHi : Fin 8
  stnLo : Fin 8
  pumps : Fin 8
  rating : Fin 8
  island : Fin 8
  role : Fin 8
  fallback : Fin 8
  probe : Fin 8
  deriving DecidableEq, Repr

/-- The strap levels held, and the levels on the strap pins, at reset. DESIGN CHOICE (log 5, log 7). -/
def StrapLevels.zero : StrapLevels := ⟨0, 0, 0, 0, 0, 0, 0, 0⟩

/-- The input pins at reset: none asserted. DESIGN CHOICE (log 5). -/
def Inputs.idle : Inputs := ⟨0, 0, 0⟩

/-- The commands: the events of the part and the commands of its service port. -/
inductive Instr where
  /-- COLD_RESET (R160): the supply is applied or falls. -/
  | coldReset
  /-- WARM_RESET (R161): RESET has been held low for `low` microseconds. -/
  | warmReset (low : Nat)
  /-- STRAP_READING_COMPLETE (R163): `levels` are the levels measured, each in its own millisecond (R158). -/
  | strapReadingComplete (levels : StrapLevels)
  /-- ROUND_END (R24). -/
  | roundEnd (inp : Inputs)
  /-- SETTLE_POINT (R42). -/
  | settlePoint
  /-- WINDOW_OPENING (R67). -/
  | windowOpening
  /-- ARBITRATION_BIT_READING (R68): which of the two cables are driven at the middle of the cell. -/
  | arbitrationBitReading (driven : DrivenLevels)
  /-- LAST_BIT_END (R70). -/
  | lastBitEnd
  /-- CONFIRMATION_BEGIN (R71). -/
  | confirmationBegin (inp : Inputs)
  /-- START_TAKEN_OR_DROPPED (R72). -/
  | startTakenOrDropped (inp : Inputs)
  /-- WINDOW_END (R77). -/
  | windowEnd
  /-- OWN_SLOT_START (R40). -/
  | ownSlotStart (inp : Inputs)
  /-- ANNOUNCEMENT_TRANSMIT_BEGIN (R151). -/
  | announcementTransmitBegin
  /-- CHARACTER_READ_BACK (R151): what cables A and B return in the place of the character just sent. -/
  | characterReadBack (onA onB : Returned) (inp : Inputs)
  /-- FOREIGN_EDGE_ON_FRAME (R151, case 4), on the cable active at that instant (R150). -/
  | foreignEdgeOnFrame (inp : Inputs)
  /-- TRANSMISSION_END (R151). -/
  | transmissionEnd
  /-- CHARACTER_COMPLETE (R141): the eleven readings of the decoder of cable `c`. -/
  | characterComplete (c : Cable) (r : Readings)
  /-- FRAME_ARRIVAL (R143): the end of the last character of the frame under way on cable `c`. -/
  | frameArrival (c : Cable) (inp : Inputs)
  /-- FRAME_TRUNCATED (R142): no start edge in time on cable `c`. -/
  | frameTruncated (c : Cable)
  /-- CHECK_COMPARISON_TIMEOUT (R154). -/
  | checkComparisonTimeout
  /-- CHECK_PULSE_END (R155). -/
  | checkPulseEnd
  /-- PRIME_SENSE_ASSERTED (R86). -/
  | primeSenseAsserted (k : PumpIx)
  /-- PRIME_TIMER_EXPIRY (R87). -/
  | primeTimerExpiry (k : PumpIx)
  /-- FEEDBACK_DUE_EXPIRY (R90): `runFb` is the level of RUN_FB of pump `k`. -/
  | feedbackDueExpiry (k : PumpIx) (runFb : Bool)
  /-- MINIMUM_RUN_EXPIRY (R91). -/
  | minimumRunExpiry (k : PumpIx)
  /-- REST_TIMER_EXPIRY (R92). -/
  | restTimerExpiry (k : PumpIx)
  /-- RUN_SECOND (R99). -/
  | runSecond (k : PumpIx)
  /-- STEP_COMPLETION (R111). -/
  | stepCompletion (k : PumpIx)
  /-- COUNTING_WINDOW_END (R123): the cycles of the probe and of the reference in the 20 ms of the window. -/
  | countingWindowEnd (g : ProbeGroup) (probeCycles referenceCycles : Nat)
  /-- TRANSACTION_BEGIN (R165): SSEL falls. -/
  | transactionBegin
  /-- TRANSACTION_END (R167): SSEL rises. -/
  | transactionEnd
  /-- READ_STATION (R170, R171). -/
  | readStation
  /-- READ_ENTRY (R22): `inp` are the pins as they stand, which the own entry shows (R3). -/
  | readEntry (k : Byte) (inp : Inputs)
  /-- READ_PUMP (R104). -/
  | readPump (k : Byte)
  /-- READ_PROBE (R138). -/
  | readProbe (g p : Byte)
  /-- READ_CABLES (R156). -/
  | readCables
  /-- READ_FLAG_CHANGES (R21). -/
  | readFlagChanges
  /-- WRITE_STEP (R117): index, speed, hold, end mark. -/
  | writeStep (ix sp h m : Byte)
  /-- WRITE_POINTERS (R118): pump, up start, run start, down start, rate divisor. -/
  | writePointers (k u r d q : Byte)
  /-- HOLD_PUMP (R97). -/
  | holdPump (k : Byte)
  /-- RELEASE_PUMP (R98). -/
  | releasePump (k : Byte)
  /-- CLEAR_FAULT (R96). -/
  | clearFault (k : Byte)
  /-- SET_RUN_MINUTES (R100): pump, then the figure in three characters. -/
  | setRunMinutes (k : Byte) (m : BitVec 24)
  /-- SELECT_CABLE (R149). -/
  | selectCable (c : Byte)
  /-- START_CHECK (R153). -/
  | startCheck (n : Byte)
  /-- STOP_CHECK (R153). -/
  | stopCheck
  /-- FORGET_ENTRY (R15). -/
  | forgetEntry (k : Byte)
  /-- CLEAR_COUNTERS (R145). -/
  | clearCounters
  /-- SET_ATTENTION_MASK (R174). -/
  | setAttentionMask (m : Byte)
  /-- CLEAR_ATTENTION (R175). -/
  | clearAttention (m : Byte)
  /-- UNKNOWN (R168): a command character that names no command. -/
  | unknown (code : Byte)
  /-- RESET_END (R158). -/
  | resetEnd
  /-- WINDOW_DRIVEN_LEVEL (R75): the cable active at that instant shows a driven level (R150). -/
  | windowDrivenLevel
  /-- DECODER_INPUT_RELEASED (R141): the input of cable `c` is released. -/
  | decoderInputReleased (c : Cable)
  deriving DecidableEq, Repr

end Sys2Proof
end

