-- ==== Sys2Proof/Decode.lean ====
section
/-! DEFINITION. Decoding. The commands of the service port have characters (R165, R169, R179): a command character picks its
command and, with that command's parameter characters, makes it; `serviceCharacters` gives them back. The port clocks characters
bit by bit, and `clockedCommand` reads the bits. A word is read as the characters it carries, the first in its low eight bits. The
events have no characters and no word spells them. -/

namespace Sys2Proof

/-- The command character of a service command (R179); none for an event. The row UNKNOWN carries its own. -/
def Instr.serviceCode : Instr → Option Byte
  | .readStation => some 0x10
  | .readEntry _ _ => some 0x11
  | .readPump _ => some 0x12
  | .readProbe _ _ => some 0x13
  | .readCables => some 0x14
  | .readFlagChanges => some 0x15
  | .writeStep _ _ _ _ => some 0x20
  | .writePointers _ _ _ _ _ => some 0x21
  | .holdPump _ => some 0x30
  | .releasePump _ => some 0x31
  | .clearFault _ => some 0x32
  | .setRunMinutes _ _ => some 0x33
  | .selectCable _ => some 0x40
  | .startCheck _ => some 0x41
  | .stopCheck => some 0x42
  | .forgetEntry _ => some 0x50
  | .clearCounters => some 0x51
  | .setAttentionMask _ => some 0x60
  | .clearAttention _ => some 0x61
  | .unknown c => some c
  | .coldReset | .warmReset _ | .strapReadingComplete _ | .roundEnd _ | .settlePoint | .windowOpening
  | .arbitrationBitReading _ | .lastBitEnd | .confirmationBegin _ | .startTakenOrDropped _ | .windowEnd
  | .ownSlotStart _ | .announcementTransmitBegin | .characterReadBack _ _ _ | .foreignEdgeOnFrame _
  | .transmissionEnd | .characterComplete _ _ | .frameArrival _ _ | .frameTruncated _ | .checkComparisonTimeout
  | .checkPulseEnd | .primeSenseAsserted _ | .primeTimerExpiry _ | .feedbackDueExpiry _ _ | .minimumRunExpiry _
  | .restTimerExpiry _ | .runSecond _ | .stepCompletion _ | .countingWindowEnd _ _ _ | .transactionBegin
  | .transactionEnd | .resetEnd | .windowDrivenLevel | .decoderInputReleased _ => none

/-- The number of parameter characters of each command character, and none for a character that names no command
(R169, R179). -/
def parameterCount (code : Byte) : Option Nat :=
  match code.toNat with
  | 0x10 => some 0
  | 0x11 => some 1
  | 0x12 => some 1
  | 0x13 => some 2
  | 0x14 => some 0
  | 0x15 => some 0
  | 0x20 => some 4
  | 0x21 => some 5
  | 0x30 => some 1
  | 0x31 => some 1
  | 0x32 => some 1
  | 0x33 => some 4
  | 0x40 => some 1
  | 0x41 => some 1
  | 0x42 => some 0
  | 0x50 => some 1
  | 0x51 => some 0
  | 0x60 => some 1
  | 0x61 => some 1
  | _ => none

/-- The service command whose characters, command character first, are `cs`; none where the parameter characters are not as
many as R169 gives. `inp` are the pins at the taking, which READ ENTRY shows for the own entry. -/
def serviceCommand (inp : Inputs) (cs : List Byte) : Option Instr :=
  match cs with
  | [] => none
  | code :: ps =>
    match code.toNat, ps with
    | 0x10, [] => some .readStation
    | 0x11, [k] => some (.readEntry k inp)
    | 0x12, [k] => some (.readPump k)
    | 0x13, [g, p] => some (.readProbe g p)
    | 0x14, [] => some .readCables
    | 0x15, [] => some .readFlagChanges
    | 0x20, [ix, sp, h, m] => some (.writeStep ix sp h m)
    | 0x21, [k, u, r, d, q] => some (.writePointers k u r d q)
    | 0x30, [k] => some (.holdPump k)
    | 0x31, [k] => some (.releasePump k)
    | 0x32, [k] => some (.clearFault k)
    | 0x33, [k, hi, mid, lo] => some (.setRunMinutes k (hi ++ mid ++ lo))
    | 0x40, [c] => some (.selectCable c)
    | 0x41, [n] => some (.startCheck n)
    | 0x42, [] => some .stopCheck
    | 0x50, [k] => some (.forgetEntry k)
    | 0x51, [] => some .clearCounters
    | 0x60, [m] => some (.setAttentionMask m)
    | 0x61, [m] => some (.clearAttention m)
    | _, [] => if (parameterCount code).isNone then some (.unknown code) else none
    | _, _ :: _ => none

/-- The bits of a character in the order in which the port clocks them, most significant first (R165). -/
def charBits (c : Byte) : List Bool :=
  [c.getLsbD 7, c.getLsbD 6, c.getLsbD 5, c.getLsbD 4, c.getLsbD 3, c.getLsbD 2, c.getLsbD 1, c.getLsbD 0]

/-- The character of eight bits clocked most significant first (R165). -/
def bitsChar (bs : List Bool) : Byte := bs.foldl (fun c b => (c ++ BitVec.ofBool b).setWidth 8) 0

/-- The whole characters among the bits clocked in; bits that complete no character are none yet (R165). -/
def clockedChars : List Bool → List Byte
  | b₇ :: b₆ :: b₅ :: b₄ :: b₃ :: b₂ :: b₁ :: b₀ :: bs => bitsChar [b₇, b₆, b₅, b₄, b₃, b₂, b₁, b₀] :: clockedChars bs
  | _ => []

/-- The command taken among the bits that the part took from SDI at the rising edges of SCLK since the fall of SSEL: the command
character picks it, and it is taken at the edge that completes its last parameter character. What is clocked after that edge is
ignored, and before it no command is taken (R165, R167, R168). -/
def clockedCommand (inp : Inputs) (bits : List Bool) : Option Instr :=
  match clockedChars bits with
  | [] => none
  | code :: ps =>
    let n := (parameterCount code).getD 0
    if n ≤ ps.length then serviceCommand inp (code :: ps.take n) else none

/-- The events of a transaction in which the host clocks these bits, from the fall of SSEL to its rise: the command is among them
where it is taken (R165, R167). -/
def transaction (inp : Inputs) (bits : List Bool) : List Instr :=
  .transactionBegin :: (clockedCommand inp bits).toList ++ [.transactionEnd]

/-- The first `n` characters of a word, the first character in its low eight bits. -/
def wordCharacters (n w : Nat) : List Byte := (List.range n).map (fun i => BitVec.ofNat 8 (w / 256 ^ i))

/-- The command taken among the whole characters of a word of `nbits` bits, each clocked as R165 clocks it; none where they do not
complete one (R165, R179). -/
def wordCommand (inp : Inputs) (nbits w : Nat) : Option Instr :=
  clockedCommand inp ((wordCharacters (nbits / 8) w).flatMap charBits)

/-- The command that a word spells by the codes of R179, with no pin asserted for READ ENTRY (log 6). -/
def decodeTableWord (nbits w : Nat) : Option Instr := wordCommand Inputs.idle nbits w

/-- The parameter characters of a service command, in the order of R169; a figure of three characters high first (R179). -/
def Instr.parameters : Instr → List Byte
  | .readEntry k _ | .readPump k | .holdPump k | .releasePump k | .clearFault k | .selectCable k | .startCheck k
  | .forgetEntry k | .setAttentionMask k | .clearAttention k => [k]
  | .readProbe g p => [g, p]
  | .writeStep ix sp h m => [ix, sp, h, m]
  | .writePointers k u r d q => [k, u, r, d, q]
  | .setRunMinutes k m => [k, m.extractLsb' 16 8, m.extractLsb' 8 8, m.extractLsb' 0 8]
  | .readStation | .readCables | .readFlagChanges | .stopCheck | .clearCounters | .unknown _ | .coldReset
  | .warmReset _ | .strapReadingComplete _ | .roundEnd _ | .settlePoint | .windowOpening | .arbitrationBitReading _
  | .lastBitEnd | .confirmationBegin _ | .startTakenOrDropped _ | .windowEnd | .ownSlotStart _
  | .announcementTransmitBegin | .characterReadBack _ _ _ | .foreignEdgeOnFrame _ | .transmissionEnd
  | .characterComplete _ _ | .frameArrival _ _ | .frameTruncated _ | .checkComparisonTimeout | .checkPulseEnd
  | .primeSenseAsserted _ | .primeTimerExpiry _ | .feedbackDueExpiry _ _ | .minimumRunExpiry _ | .restTimerExpiry _
  | .runSecond _ | .stepCompletion _ | .countingWindowEnd _ _ _ | .transactionBegin | .transactionEnd | .resetEnd
  | .windowDrivenLevel | .decoderInputReleased _ => []

/-- The characters the host clocks for a service command; none for an event. -/
def Instr.serviceCharacters (i : Instr) : Option (List Byte) :=
  i.serviceCode.map (fun c => c :: i.parameters)

end Sys2Proof
end

