-- ==== Sys2Proof/Machine/State.lean ====
section
/-! DEFINITION. The state of the HB-4116 as plain data, one record for each block, and the machine right after reset. Times
are in microseconds (log 2). A timer is `none` while it is stopped (R80). -/

namespace Sys2Proof.Machine

open Sys2Proof

/-! ### Part and straps (chapter 9) -/

/-- The two kinds of reset (R160, R161). -/
inductive ResetKind where
  | cold
  | warm
  deriving DecidableEq, Repr

/-- What the part as a whole is doing (R158 to R163). -/
inductive Condition where
  /-- A reset lasts (R160, R161). -/
  | reset (kind : ResetKind)
  /-- The 8.0 ms of the strap reading (R158). -/
  | strapReading
  /-- Every block runs (R163). -/
  | running
  /-- STRAP FAULT (R159). -/
  | strapFault
  deriving DecidableEq, Repr

/-! ### District table (chapter 1) -/

/-- The status of an entry (R1, R2). -/
inductive EntryStatus where
  | empty
  | fresh
  | stale
  | lost
  deriving DecidableEq, Repr

/-- The station modes (R32); an entry of another station is never `silent` (R1). -/
inductive Mode where
  | joining
  | member
  | isolated
  | silent
  deriving DecidableEq, Repr

/-- The fields of R1 that are absent only while an entry is EMPTY. -/
structure EntryFields where
  mode : Mode
  /-- A class 0 to 7; `none` is the value "unknown". -/
  polderClass : Option (Fin 8)
  flood : Bool
  demand : Nat
  committed : Nat
  island : Nat
  /-- An offer of 0 to 62 du; `none` is the value "none". -/
  offer : Option Nat
  flags : FlagSet
  /-- Four two-bit codes, pump 0 in the lowest bits (R4, R176). -/
  summary : Byte
  deriving DecidableEq, Repr

/-- One entry of the district table (R1). -/
structure Entry where
  status : EntryStatus
  age : Nat
  fields : Option EntryFields
  startSeen : Option Word16
  lastCount : Option Word16
  deriving DecidableEq, Repr

/-- An EMPTY entry (R1, R5). -/
def Entry.blank : Entry :=
  { status := .empty, age := 255, fields := none, startSeen := none, lastCount := none }

/-- A record of the flag change queue (R20). -/
structure FlagRecord where
  flags : FlagSet
  round : Word16
  deriving DecidableEq, Repr

/-- The district table's state. The place of the own number in `entries` is never written: the own entry is a live view (R3);
only its start seen is held. -/
structure Table where
  entries : Vector Entry 16
  ownStartSeen : Option Word16
  candidate : FlagSet
  accepted : FlagSet
  /-- Oldest first, at most two (R20). -/
  queue : List FlagRecord
  overrun : Bool
  deriving DecidableEq, Repr

def Table.reset : Table :=
  { entries := Vector.replicate 16 Entry.blank, ownStartSeen := none, candidate := 0, accepted := 0, queue := [],
    overrun := false }

/-! ### Round timer (chapter 2) -/

/-- A realignment held by R29: its sender, the round count its frame carries and the time since the frame's first start
edge. -/
structure HeldRealignment where
  sender : Station
  frameCount : Word16
  edgeAge : Nat
  deriving DecidableEq, Repr

/-- The schedule that a realignment has replaced: the phase and the round count as they stood just before it, and the time since.
The out-of-step test needs them for a first start edge that lies before the realignment (R30, log 14). -/
structure Replaced where
  phase : Nat
  count : Word16
  age : Nat
  deriving DecidableEq, Repr

/-- The round timer's state (R25). -/
structure RoundTimer where
  phase : Nat
  count : Word16
  mode : Mode
  /-- JOINING aligned; has a meaning only while the mode is JOINING (R32). -/
  aligned : Bool
  reference : Option Station
  joiningCount : Nat
  unheardCount : Nat
  readBackCount : Nat
  realignCount : Word16
  /-- The current round is marked as one with an accepted frame from another station (R31). -/
  roundMarked : Bool
  /-- A read-back failure has been counted in the current round (R38). -/
  failedInRound : Bool
  /-- Taken, or skipped by R28, in the current round (R24). -/
  settleTaken : Bool
  windowTaken : Bool
  announceTaken : Bool
  held : Option HeldRealignment
  /-- The schedules replaced within the last 336 µs, oldest first (R30). -/
  replaced : List Replaced
  deriving DecidableEq, Repr

def RoundTimer.reset : RoundTimer :=
  { phase := 0, count := 0, mode := .joining, aligned := false, reference := none, joiningCount := 0, unheardCount := 0,
    readBackCount := 0, realignCount := 0, roundMarked := false, failedInRound := false, settleTaken := false,
    windowTaken := false, announceTaken := false, held := none, replaced := [] }

/-! ### Allocation unit (chapter 3) -/

/-- The allocation unit's state (R43), with the mark of R69 that a shed stop was issued at the latest settle point. -/
structure Allocation where
  heldQuota : Option Nat
  heldAge : Nat
  qd : Nat
  entitlement : Nat
  demand : Nat
  target : Nat
  startWanted : Option PumpIx
  shedSinceSettle : Bool
  deriving DecidableEq, Repr

def Allocation.reset : Allocation :=
  { heldQuota := none, heldAge := 240, qd := 0, entitlement := 0, demand := 0, target := 0, startWanted := none,
    shedSinceSettle := false }

/-! ### Start arbiter (chapter 4) -/

inductive LastResult where
  | none
  | win
  | loss
  deriving DecidableEq, Repr

inductive WindowPart where
  | out
  | contending
  | withdrawn
  | won
  deriving DecidableEq, Repr

/-- The record of the last winner heard (R76); the rating is kept as the confirmation carries it (R177). -/
structure WindowRecord where
  station : Station
  pump : PumpIx
  rating : Byte
  round : Word16
  deriving DecidableEq, Repr

/-- The start window under way (R64). -/
structure Window where
  elapsed : Nat
  /-- A driven level or a valid confirmation has been seen (R75). -/
  notFree : Bool
  /-- Bit cells read so far, 0 to 7 (R68). -/
  bitsRead : Nat
  /-- The arbitration word, fixed at the opening (R68, R178); the bit sent first is the most significant. -/
  word : BitVec 7
  /-- For each bit cell begun, the cable active at its begin, on which its reading is compared (R150). -/
  cables : List Cable
  /-- A realignment arriving now is held (R29). -/
  holding : Bool
  deriving DecidableEq, Repr

/-- The start arbiter's state (R63). -/
structure Arbiter where
  freeWindows : Nat
  lastResult : LastResult
  threshold : Nat
  part : WindowPart
  pendingStart : Option PumpIx
  record : Option WindowRecord
  window : Option Window
  /-- The line interface has reported a clean confirmation whose start is still to be taken or dropped (R71, R72). -/
  confirmClean : Bool
  deriving DecidableEq, Repr

def Arbiter.reset : Arbiter :=
  { freeWindows := 0, lastResult := .none, threshold := 4, part := .out, pendingStart := none, record := none,
    window := none, confirmClean := false }

/-! ### Pump controllers (chapter 5) -/

inductive PumpState where
  | absent
  | held
  | idle
  | resting
  | priming
  | rampUp
  | running
  | rampDown
  | faulted
  deriving DecidableEq, Repr

inductive FaultCause where
  | primeTimeout
  | noFeedback
  | runLost
  | profileFault
  deriving DecidableEq, Repr

/-- A pump record (R80). -/
structure Pump where
  state : PumpState
  cause : Option FaultCause
  holdPending : Bool
  /-- The stop mark FINISHING. -/
  finishing : Bool
  primeTimer : Option Nat
  feedbackTimer : Option Nat
  supervised : Bool
  missCount : Nat
  minRunTimer : Option Nat
  pastMinRun : Bool
  restTimer : Option Nat
  runMinutes : Nat
  /-- The minute accumulator, in seconds. -/
  accumulator : Nat
  /-- What is left of the present whole second since entry to RAMP_UP (R99). -/
  secondTimer : Option Nat
  deriving DecidableEq, Repr

/-- A pump record after reset (R81) with the given run minutes, before the straps say whether it is fitted (log 7). -/
def Pump.reset (minutes : Nat) : Pump :=
  { state := .absent, cause := none, holdPending := false, finishing := false, primeTimer := none, feedbackTimer := none,
    supervised := false, missCount := 0, minRunTimer := none, pastMinRun := false, restTimer := none,
    runMinutes := minutes, accumulator := 0, secondTimer := none }

/-- The speed references of the drive outputs (R101): the duty of the present period of each, and the position of the
output time base in the period. The four periods have one position in common, and so begin together. DESIGN CHOICE, unsafe
(log 46). -/
structure Drives where
  duty : Vector Nat 4
  position : Nat
  deriving DecidableEq, Repr

def Drives.reset : Drives := { duty := Vector.replicate 4 0, position := 0 }

/-! ### Profile player (chapter 6) -/

/-- A step of the profile memory (R105). -/
structure ProfileStep where
  speed : Nat
  hold : Nat
  endMark : Bool
  deriving DecidableEq, Repr

/-- A pump's entry in the pointer table (R107). -/
structure Pointers where
  up : Fin 64
  run : Option (Fin 64)
  down : Fin 64
  rate : Nat
  deriving DecidableEq, Repr

inductive PlayMode where
  | oneShot
  | loop
  deriving DecidableEq, Repr

/-- A player's record (R109). -/
structure Player where
  playing : Bool
  mode : Option PlayMode
  start : Option (Fin 64)
  step : Option (Fin 64)
  tick : Option Nat
  timeLeft : Option Nat
  runaway : Nat
  finish : Bool
  speed : Nat
  deriving DecidableEq, Repr

def Player.reset : Player :=
  { playing := false, mode := none, start := none, step := none, tick := none, timeLeft := none, runaway := 0,
    finish := false, speed := 0 }

/-- A filler step of the default set (R106). -/
def ProfileStep.filler : ProfileStep := { speed := 0, hold := 1, endMark := false }

/-- Steps 0 to 5 of the default set (R106). -/
def defaultUp : List ProfileStep :=
  [⟨20, 10, false⟩, ⟨35, 10, false⟩, ⟨50, 10, false⟩, ⟨65, 10, false⟩, ⟨80, 10, false⟩, ⟨100, 10, true⟩]

/-- Steps 16 to 19 of the default set (R106). -/
def defaultRun : List ProfileStep :=
  [⟨100, 255, false⟩, ⟨85, 50, false⟩, ⟨100, 255, false⟩, ⟨100, 255, true⟩]

/-- Steps 32 to 35 of the default set (R106). -/
def defaultDown : List ProfileStep :=
  [⟨70, 10, false⟩, ⟨45, 10, false⟩, ⟨25, 10, false⟩, ⟨0, 10, true⟩]

/-- The default profile memory (R106). -/
def defaultProfile : Vector ProfileStep 64 :=
  ⟨(defaultUp ++ List.replicate 10 ProfileStep.filler ++ defaultRun ++ List.replicate 12 ProfileStep.filler ++ defaultDown
      ++ List.replicate 28 ProfileStep.filler).toArray, by decide⟩

/-- The default pointer entry (R107). -/
def defaultPointers : Pointers := { up := 0, run := none, down := 32, rate := 1 }

/-! ### Gauge unit (chapter 7) -/

/-- A probe record (R122). -/
structure Probe where
  lastCode : Option Nat
  /-- Probe count and reference count of the latest window that was not void. -/
  counts : Option (Nat × Nat)
  hop : BitVec 3
  overflow : Bool
  unsteady : Bool
  deriving DecidableEq, Repr

def Probe.reset : Probe := { lastCode := none, counts := none, hop := 0, overflow := false, unsteady := false }

/-- A scan under way (R122): the probe it is on (P0 to P3 are 0 to 3, O0 and O1 are 4 and 5), the code of the first window
of the pair, the pairs tried on the probe, and the time in the window. -/
structure Scan where
  probe : Fin 6
  first : Option Nat
  tried : Nat
  windowTime : Nat
  deriving DecidableEq, Repr

/-- A group record (R122). -/
structure GaugeGroup where
  hop : BitVec 3
  level : Option Nat
  disagree : Bool
  heldClass : Option (Fin 8)
  lastRising : Option (Fin 8)
  lastFalling : Option (Fin 8)
  scan : Option Scan
  deriving DecidableEq, Repr

def GaugeGroup.reset : GaugeGroup :=
  { hop := 0, level := none, disagree := false, heldClass := none, lastRising := none, lastFalling := none, scan := none }

/-- A sump: LOW or CLEAR, with its run count (R132). -/
structure Sump where
  low : Bool
  run : Nat
  deriving DecidableEq, Repr

inductive Sampling where
  | continuous
  | periodic
  deriving DecidableEq, Repr

/-- The gauge unit's state (R122). -/
structure Gauge where
  probes : Vector Probe 6
  polder : GaugeGroup
  outfall : GaugeGroup
  flood : Bool
  floodCount : Nat
  sumpA : Sump
  sumpB : Sump
  sampling : Sampling
  waitCount : Nat
  deriving DecidableEq, Repr

def Gauge.reset : Gauge :=
  { probes := Vector.replicate 6 Probe.reset, polder := .reset, outfall := .reset, flood := false, floodCount := 0,
    sumpA := ⟨false, 0⟩, sumpB := ⟨false, 0⟩, sampling := .continuous, waitCount := 0 }

/-! ### Line interface (chapter 8) -/

inductive FrameKind where
  | announcement
  | confirmation
  deriving DecidableEq, Repr

/-- A frame under way on a cable (R142). -/
structure Assembly where
  kind : FrameKind
  chars : List Byte
  /-- A character with a parity fault has voided the frame. -/
  void : Bool
  /-- Time since the first start edge. -/
  edgeAge : Nat
  /-- The own round phase and round count at the first start edge (R30). -/
  edgePhase : Nat
  edgeCount : Word16
  /-- Time since the latest character was complete, at the middle of its stop bit. -/
  sinceChar : Nat
  deriving DecidableEq, Repr

inductive Decoder where
  /-- Seeks a start edge. -/
  | seeking
  /-- Waits for its input to be released (R141, R144). -/
  | waitRelease
  deriving DecidableEq, Repr

/-- What the line interface holds for one cable. -/
structure CableState where
  locked : Bool
  frameMark : Bool
  frameRounds : Nat
  silentRounds : Nat
  parityCount : Nat
  checkCount : Nat
  decoder : Decoder
  assembly : Option Assembly
  deriving DecidableEq, Repr

def CableState.reset : CableState :=
  { locked := false, frameMark := false, frameRounds := 0, silentRounds := 0, parityCount := 0, checkCount := 0,
    decoder := .seeking, assembly := none }

/-- A frame of the part's own under way (R151): its characters, how many have come back unchanged, for each character begun the
cable active at its start edge, on which it is compared (R150), the copies read on the other cable (R154) and the time since its
first start edge. -/
structure Transmission where
  kind : FrameKind
  chars : List Byte
  returned : Nat
  cables : List Cable
  standby : List Returned
  elapsed : Nat
  deriving DecidableEq, Repr

inductive CheckResult where
  | none
  | pass
  | fail
  | aborted
  deriving DecidableEq, Repr

/-- A frame of the active cable whose comparison is open, and the time since its arrival (R154). -/
structure OpenComparison where
  chars : List Byte
  age : Nat
  deriving DecidableEq, Repr

/-- A frame that arrived on the standby cable, `none` where it was not valid, and the time since its arrival (R154). -/
structure StandbyArrival where
  chars : Option (List Byte)
  age : Nat
  deriving DecidableEq, Repr

/-- The cable check (R153 to R155). -/
structure CableCheck where
  running : Bool
  /-- The first round end after START CHECK has passed. -/
  armed : Bool
  roundsLeft : Nat
  errored : Nat
  result : CheckResult
  /-- A comparison belonging to the present round closed unmatched. -/
  roundErrored : Bool
  opened : List OpenComparison
  arrivals : List StandbyArrival
  /-- What is left of a pulse on CHECK. -/
  pulse : Option Nat
  deriving DecidableEq, Repr

def CableCheck.reset : CableCheck :=
  { running := false, armed := false, roundsLeft := 0, errored := 0, result := .none, roundErrored := false, opened := [],
    arrivals := [], pulse := none }

/-- The line interface's state. -/
structure Line where
  a : CableState
  b : CableState
  active : Cable
  /-- The own announcement composed at the start of the own slot and not yet begun (R40). -/
  handed : Option (List Byte)
  tx : Option Transmission
  /-- The decoders are held for the arbitration bits of a window (R144). -/
  windowHold : Bool
  check : CableCheck
  deriving DecidableEq, Repr

def Line.reset : Line :=
  { a := .reset, b := .reset, active := .a, handed := none, tx := none, windowHold := false, check := .reset }

/-! ### Service port (chapter 10) -/

/-- The service port's state: the transaction and its answer, and the attention flags and mask, bit i as R179 numbers
them. -/
structure Port where
  /-- SSEL is low: a transaction is open. -/
  selected : Bool
  /-- The characters of the answer, once a command has been taken in the transaction. -/
  answer : Option (List Byte)
  flags : BitVec 6
  mask : BitVec 6
  deriving DecidableEq, Repr

def Port.reset : Port := { selected := false, answer := none, flags := 0, mask := 0b111111 }

/-! ### The whole part -/

/-- The state of the part. `pending` is the queue of commands and `free` the counter of free values: both are the model's. -/
structure State where
  cond : Condition
  /-- What is left of the strap reading (R158). -/
  strapTime : Nat
  /-- The levels the strap reader keeps. -/
  straps : StrapLevels
  /-- The levels on the strap pins. -/
  strapPins : StrapLevels
  inputs : Inputs
  table : Table
  timer : RoundTimer
  alloc : Allocation
  arb : Arbiter
  pumps : Vector Pump 4
  players : Vector Player 4
  profile : Vector ProfileStep 64
  pointers : Vector Pointers 4
  drives : Drives
  gauge : Gauge
  line : Line
  port : Port
  free : Nat
  pending : List Instr
  deriving DecidableEq, Repr

/-- The part stops for no reason of its own: no rule of the spec ends in a stop, so there is no fault. -/
inductive Fault where
  deriving DecidableEq, Repr

/-- Why a command has no meaning. -/
inductive Refusal where
  /-- Raised by `exec` alone, for a row of the table that has no meaning yet; none is left. Safe. -/
  | notModelled (mnemonic : String)
  deriving DecidableEq, Repr

/-- The machine right after reset: a cold reset has just ended and the strap reading begins (R158, R160, log 6). -/
def State.reset : State :=
  { cond := .strapReading, strapTime := 8000, straps := .zero, strapPins := .zero, inputs := .idle, table := .reset,
    timer := .reset, alloc := .reset, arb := .reset, pumps := Vector.replicate 4 (Pump.reset 0),
    players := Vector.replicate 4 Player.reset, profile := defaultProfile, pointers := Vector.replicate 4 defaultPointers,
    drives := .reset, gauge := .reset, line := .reset, port := .reset, free := 0, pending := [] }

end Sys2Proof.Machine
end

