-- ==== Sys2Proof/Machine/Operands.lean ====
section
/-! DEFINITION. Operand forms: what the straps decode to (R157), the eleven readings of a character (R140, R141), the checks of
the frames (R177), the announcement and confirmation frames (R176, R177, R7), the arbitration word (R178), and parameter
characters as indices. -/

namespace Sys2Proof

/-! ### Straps (R157) -/

/-- The station number: 8 × STN_HI + STN_LO. -/
def StrapLevels.station (l : StrapLevels) : Station := Fin.ofNat 16 (8 * l.stnHi.val + l.stnLo.val)

/-- The number of fitted pumps, 1 to 4. -/
def StrapLevels.fitted (l : StrapLevels) : Nat :=
  if l.pumps.val < 4 then l.pumps.val + 1 else l.pumps.val - 3

/-- The pumps are variable-speed pumps. -/
def StrapLevels.variableSpeed (l : StrapLevels) : Bool := decide (4 ≤ l.pumps.val)

/-- The pump rating r, 1 to 8 du. -/
def StrapLevels.pumpRating (l : StrapLevels) : Nat := l.rating.val + 1

/-- The island share, 0 to 7 du. -/
def StrapLevels.islandShare (l : StrapLevels) : Nat := l.island.val

/-- The offer curve of a gauge station, 1 to 4; none at a plain station. -/
def StrapLevels.curve (l : StrapLevels) : Option Nat :=
  if 1 ≤ l.role.val ∧ l.role.val ≤ 4 then some l.role.val else none

/-- The fallback quota, 0 to 56 du. -/
def StrapLevels.fallbackQuota (l : StrapLevels) : Nat := 8 * l.fallback.val

/-- STN_HI holds a level with no meaning. -/
def StrapLevels.stnHiFault (l : StrapLevels) : Bool := decide (2 ≤ l.stnHi.val)

/-- ROLE holds a level with no meaning. -/
def StrapLevels.roleFault (l : StrapLevels) : Bool := decide (5 ≤ l.role.val)

/-- The part enters STRAP FAULT on these levels (R159). -/
def StrapLevels.inFault (l : StrapLevels) : Bool := l.stnHiFault || l.roleFault

/-- The eight levels in the order of R157, as characters (R180). -/
def StrapLevels.chars (l : StrapLevels) : List Byte :=
  [l.stnHi, l.stnLo, l.pumps, l.rating, l.island, l.role, l.fallback, l.probe].map (fun v => BitVec.ofNat 8 v.val)

/-! ### Cables -/

/-- Of a figure of each cable, that of this one. -/
def Cable.choose {α : Type} (c : Cable) (onA onB : α) : α :=
  match c with
  | .a => onA
  | .b => onB

/-- The level of a cable. -/
def DrivenLevels.on (l : DrivenLevels) (c : Cable) : Bool := c.choose l.onA l.onB

namespace Machine

/-! ### Characters on the line (R140, R141) -/

/-- The eleven cells of a character the part sends: start driven, eight data bits least significant first, a parity bit that
makes the number of released bits even, stop released (R140). -/
def readingsOf (c : Byte) : Readings :=
  let parity := (List.range 8).foldl (fun p i => xor p (c.getLsbD i)) false
  BitVec.ofNat 11 (c.toNat * 2 + (if parity then 512 else 0) + 1024)

/-- What a decoder finds in eleven readings (R141). -/
inductive CharFinding where
  | falseStart
  | char (value : Byte) (parityFault stopFault : Bool)
  deriving DecidableEq, Repr

/-- The judgement of eleven readings (R141): a released start bit is a false start; otherwise the data bits with a parity
fault where the released bits among data and parity are odd in number, and a stop fault where the stop reading is driven. -/
def judgeReadings (r : Readings) : CharFinding :=
  if r.getLsbD 0 then .falseStart
  else
    let odd := (List.range 9).foldl (fun p i => xor p (r.getLsbD (i + 1))) false
    .char (r.extractLsb' 1 8) odd (!r.getLsbD 10)

/-! ### Checks (R177) -/

/-- One shift of the CRC-16 register. -/
def crc16Shift (r : Word16) : Word16 := if r.msb then (r <<< 1) ^^^ 0x1021 else r <<< 1

/-- The CRC-16 register after one more character. -/
def crc16Char (r : Word16) (c : Byte) : Word16 :=
  (List.range 8).foldl (fun x _ => crc16Shift x) (r ^^^ (c.zeroExtend 16 <<< 8))

/-- The check of an announcement over its characters 1 to 11. -/
def crc16 (cs : List Byte) : Word16 := cs.foldl crc16Char 0xFFFF

/-- One shift of the CRC-8 register. -/
def crc8Shift (r : Byte) : Byte := if r.msb then (r <<< 1) ^^^ 0x07 else r <<< 1

/-- The CRC-8 register after one more character. -/
def crc8Char (r c : Byte) : Byte := (List.range 8).foldl (fun x _ => crc8Shift x) (r ^^^ c)

/-- The check of a confirmation over its characters 1 to 3. -/
def crc8 (cs : List Byte) : Byte := cs.foldl crc8Char 0

/-- A 16-bit quantity in two characters, most significant first. -/
def word16Chars (w : Word16) : List Byte := [w.extractLsb' 8 8, w.extractLsb' 0 8]

/-- Two characters as a 16-bit quantity, most significant first. -/
def charsWord16 (hi lo : Byte) : Word16 := hi ++ lo

/-! ### Frames (R142, R143, R176, R177) -/

/-- The number of characters of a frame. -/
def FrameKind.length : FrameKind → Nat
  | .announcement => 13
  | .confirmation => 4

/-- The kind of frame a lead begins (R142). -/
def leadKind (c : Byte) : Option FrameKind :=
  if c = 0x5A then some .announcement else if c = 0xC3 then some .confirmation else none

/-- The check of a complete frame is correct (R143). -/
def frameCheckOk (kind : FrameKind) (cs : List Byte) : Bool :=
  match kind with
  | .announcement => decide (crc16 (cs.take 11) = charsWord16 (cs.getD 11 0) (cs.getD 12 0))
  | .confirmation => decide (crc8 (cs.take 3) = cs.getD 3 0)

/-- The mode a mode code announces; none for code 3 (R7, R176). -/
def modeOfCode (c : BitVec 2) : Option Mode :=
  match c.toNat with
  | 0 => some .joining
  | 1 => some .member
  | 2 => some .isolated
  | _ => none

/-- The code of a mode in a record (R180); codes 0 to 2 are those of an announcement (R176). -/
def Mode.code : Mode → Nat
  | .joining => 0
  | .member => 1
  | .isolated => 2
  | .silent => 3

/-- A class as a number, 15 for unknown (R176, R180). -/
def classCode (c : Option (Fin 8)) : Nat :=
  match c with
  | some k => k.val
  | none => 15

/-- The class of a class code: 0 to 7, or unknown for 8 to 15 (R7). -/
def classOfCode (c : BitVec 4) : Option (Fin 8) :=
  if c.toNat ≤ 7 then some (Fin.ofNat 8 c.toNat) else none

/-- Announcement character 5: class in bits 0 to 3, flood alarm in bit 7. -/
def classChar (c : Option (Fin 8)) (flood : Bool) : Byte :=
  BitVec.ofNat 8 (classCode c + (if flood then 128 else 0))

/-- A quota offer as a character, 63 for none. -/
def offerChar (o : Option Nat) : Byte := BitVec.ofNat 8 (o.getD 63)

/-- The content of an announcement (R176), read by R7. A mode code of 3 gives `mode` none. -/
structure Announcement where
  station : Station
  mode : Option Mode
  count : Word16
  fields : EntryFields
  deriving DecidableEq, Repr

/-- The readings of R7 on the characters of an announcement. -/
def parseAnnouncement (cs : List Byte) : Announcement :=
  let c2 := cs.getD 1 0
  let c5 := cs.getD 4 0
  let offer := (cs.getD 8 0).toNat
  let mode := modeOfCode (c2.extractLsb' 4 2)
  { station := Fin.ofNat 16 (c2.extractLsb' 0 4).toNat
    mode := mode
    count := charsWord16 (cs.getD 2 0) (cs.getD 3 0)
    fields :=
      { mode := mode.getD .joining
        polderClass := classOfCode (c5.extractLsb' 0 4)
        flood := c5.getLsbD 7
        demand := min 63 (cs.getD 5 0).toNat
        committed := min 63 (cs.getD 6 0).toNat
        island := min 7 (cs.getD 7 0).toNat
        offer := if offer ≤ 62 then some offer else none
        flags := (cs.getD 9 0).extractLsb' 0 4
        summary := cs.getD 10 0 } }

/-- The thirteen characters of an announcement (R176). -/
def announcementChars (k : Station) (count : Word16) (f : EntryFields) : List Byte :=
  let body : List Byte :=
    [0x5A, BitVec.ofNat 8 (k.val + 16 * f.mode.code), count.extractLsb' 8 8, count.extractLsb' 0 8,
      classChar f.polderClass f.flood, BitVec.ofNat 8 f.demand, BitVec.ofNat 8 f.committed, BitVec.ofNat 8 f.island,
      offerChar f.offer, f.flags.zeroExtend 8, f.summary]
  body ++ word16Chars (crc16 body)

/-- The content of a confirmation (R177). -/
structure Confirmation where
  station : Station
  pump : PumpIx
  rating : Byte
  deriving DecidableEq, Repr

/-- A confirmation as received; bits 6 and 7 of character 2 are ignored (R177). -/
def parseConfirmation (cs : List Byte) : Confirmation :=
  let c2 := cs.getD 1 0
  { station := Fin.ofNat 16 (c2.extractLsb' 0 4).toNat
    pump := Fin.ofNat 4 (c2.extractLsb' 4 2).toNat
    rating := cs.getD 2 0 }

/-- The four characters of a confirmation (R177). -/
def confirmationChars (k : Station) (p : PumpIx) (rating : Nat) : List Byte :=
  let body : List Byte := [0xC3, BitVec.ofNat 8 (k.val + 16 * p.val), BitVec.ofNat 8 rating]
  body ++ [crc8 body]

/-! ### Arbitration word (R68, R178) -/

/-- 7 less the urgency, then the station number; a 0 is driven. -/
def arbitrationWord (urgency : Nat) (k : Station) : BitVec 7 := BitVec.ofNat 7 (16 * (7 - urgency) + k.val)

/-- Bit k of the word in the order of sending, k from 0: true for released. -/
def wordBit (w : BitVec 7) (k : Nat) : Bool := w.getLsbD (6 - k)

/-! ### Parameter characters -/

/-- A pump parameter, 0 to 3. -/
def pumpParameter (c : Byte) : Option PumpIx :=
  if h : c.toNat < 4 then some ⟨c.toNat, h⟩ else none

/-- A station parameter, 0 to 15. -/
def stationParameter (c : Byte) : Option Station :=
  if h : c.toNat < 16 then some ⟨c.toNat, h⟩ else none

/-- A step index parameter, 0 to 63. -/
def stepParameter (c : Byte) : Option (Fin 64) :=
  if h : c.toNat < 64 then some ⟨c.toNat, h⟩ else none

/-- A run start parameter: 0 to 63, or 0xFF for none; refused otherwise (R179). -/
def runStartParameter (c : Byte) : Option (Option (Fin 64)) :=
  if c = 0xFF then some none else (stepParameter c).map some

/-- An end mark parameter: 0 for no, 1 for yes; refused otherwise (R179). -/
def endMarkParameter (c : Byte) : Option Bool :=
  if c = 0 then some false else if c = 1 then some true else none

/-- A cable parameter: 0 for A, 1 for B (R179). -/
def cableParameter (c : Byte) : Option Cable :=
  if c = 0 then some .a else if c = 1 then some .b else none

/-- The probe that a group and a probe parameter name (R138): P0 to P3 are 0 to 3, O0 and O1 are 4 and 5. -/
def probeParameter (g p : Byte) : Option (Fin 6) :=
  if g = 0 then (if h : p.toNat < 4 then some ⟨p.toNat, by omega⟩ else none)
  else if g = 1 then (if h : p.toNat < 2 then some ⟨p.toNat + 4, by omega⟩ else none)
  else none

end Machine
end Sys2Proof
end

