-- ==== Sys2Proof/Machine/Flags.lean ====
section
/-! DEFINITION. Flags: the six attention flags (R172, R179) and the four district flags (R18). -/

namespace Sys2Proof.Machine

open Sys2Proof

/-- The attention flags (R172). -/
inductive Attention where
  | flagChange
  | pumpFault
  | flood
  | cableSwitch
  | checkDone
  | modeChange
  deriving DecidableEq, Repr

/-- The bit of an attention flag (R179). -/
def Attention.bit : Attention → BitVec 6
  | .flagChange => 0b000001
  | .pumpFault => 0b000010
  | .flood => 0b000100
  | .cableSwitch => 0b001000
  | .checkDone => 0b010000
  | .modeChange => 0b100000

/-- An event sets its flag, whatever the mask holds; a flag already set stays set (R172). -/
def State.raise (f : Attention) (s : State) : State :=
  { s with port := { s.port with flags := s.port.flags ||| f.bit } }

/-- A mask or flag parameter marks a place that carries no flag (R174, R175). -/
def attentionOutOfRange (c : Byte) : Bool := c.getLsbD 6 || c.getLsbD 7

/-- F0 DISCHARGE BAN is in the set (R18). -/
def dischargeBan (f : FlagSet) : Bool := f.getLsbD 0

/-- F1 DISTRICT STOP is in the set (R18). -/
def districtStop (f : FlagSet) : Bool := f.getLsbD 1

/-- F2 START HOLD is in the set (R18). -/
def startHold (f : FlagSet) : Bool := f.getLsbD 2

/-- F3 HALF QUOTA is in the set (R18). -/
def halfQuota (f : FlagSet) : Bool := f.getLsbD 3

end Sys2Proof.Machine
end

