-- ==== Sys2Proof/Machine/Ops.lean ====
section
/-! DEFINITION. The named operations over the state that every block uses: the station's strapped figures, access to pumps,
players and entries, the table's operations (chapter 1), the players (chapter 6), the pump controllers (chapter 5), the
sampling mode (R135) and the watch of a start's validity (R69). -/

namespace Sys2Proof.Machine

open Sys2Proof

/-- The pump indices in order. -/
def pumpList : List PumpIx := [0, 1, 2, 3]

/-- The station numbers in order. -/
def stationList : List Station := [0, 1, 2, 3, 4, 5, 6, 7, 8, 9, 10, 11, 12, 13, 14, 15]

/-- The blocks run (R163). -/
def State.isRunning (s : State) : Bool := decide (s.cond = .running)

/-- The own station number (R157). -/
def State.own (s : State) : Station := s.straps.station

/-- The pump rating r (R157). -/
def State.rating (s : State) : Nat := s.straps.pumpRating

/-- The island share (R157). -/
def State.islandShare (s : State) : Nat := s.straps.islandShare

/-- The record of pump `k`. -/
def State.pump (s : State) (k : PumpIx) : Pump := s.pumps[k]

/-- The record of pump `k` is replaced. -/
def State.setPump (k : PumpIx) (p : Pump) (s : State) : State := { s with pumps := s.pumps.set k p }

/-- The player of pump `k`. -/
def State.player (s : State) (k : PumpIx) : Player := s.players[k]

/-- The record of the player of pump `k` is replaced. -/
def State.setPlayer (k : PumpIx) (p : Player) (s : State) : State := { s with players := s.players.set k p }

/-! ### Pump states and what they count for (5.2) -/

/-- Committed: PRIMING, RAMP_UP and RUNNING (R55). -/
def PumpState.committed : PumpState → Bool
  | .priming | .rampUp | .running => true
  | .absent | .held | .idle | .resting | .rampDown | .faulted => false

/-- The active states, to which stops apply (5.2). -/
def PumpState.active : PumpState → Bool
  | .priming | .rampUp | .running | .rampDown => true
  | .absent | .held | .idle | .resting | .faulted => false

/-- RAMP_UP and RUNNING, in which the run is timed (R90, R91, R99). -/
def PumpState.runs : PumpState → Bool
  | .rampUp | .running => true
  | .absent | .held | .idle | .resting | .priming | .rampDown | .faulted => false

/-- PRIMING and RAMP_UP: the starting pump (R57, R60). -/
def PumpState.starting : PumpState → Bool
  | .priming | .rampUp => true
  | .absent | .held | .idle | .resting | .running | .rampDown | .faulted => false

/-- The states in which a pump may be available (R48). -/
def PumpState.availableState : PumpState → Bool
  | .idle | .resting | .priming | .rampUp | .running | .rampDown => true
  | .absent | .held | .faulted => false

/-- The code of a pump in a summary (R4). -/
def PumpState.summaryCode : PumpState → Nat
  | .absent | .held => 0
  | .idle | .resting => 1
  | .priming | .rampUp | .running | .rampDown => 2
  | .faulted => 3

/-- The sump that serves pump `k` is LOW: sump A serves pumps 0 and 1, sump B pumps 2 and 3 (R103). -/
def State.sumpLow (s : State) (k : PumpIx) : Bool := if k.val < 2 then s.gauge.sumpA.low else s.gauge.sumpB.low

/-- The pump counts as available (R48). -/
def State.available (s : State) (k : PumpIx) : Bool := (s.pump k).state.availableState && !s.sumpLow k

/-- The committed discharge C (R55): the rating for each pump in PRIMING, RAMP_UP or RUNNING. -/
def State.committed (s : State) : Nat :=
  (pumpList.filter (fun k => (s.pump k).state.committed)).length * s.rating

/-! ### The district table (chapter 1) -/

/-- The status an age gives (R2). -/
def statusOfAge (age : Nat) : EntryStatus :=
  if age ≤ 1 then .fresh else if age ≤ 7 then .stale else .lost

/-- The own pump summary (R4). -/
def State.ownSummary (s : State) : Byte :=
  BitVec.ofNat 8 ((s.pump 0).state.summaryCode + 4 * (s.pump 1).state.summaryCode + 16 * (s.pump 2).state.summaryCode
    + 64 * (s.pump 3).state.summaryCode)

/-- The offer curves at river classes 0 to 7 (R134). -/
def offerCurve : Nat → List Nat
  | 1 => [62, 56, 48, 40, 32, 24, 12, 0]
  | 2 => [48, 44, 40, 32, 24, 16, 8, 0]
  | 3 => [40, 36, 32, 28, 20, 12, 6, 0]
  | 4 => [32, 28, 24, 20, 16, 8, 4, 0]
  | _ => []

/-- The own quota offer: the curve at the held river class, none at a plain station or while the class is unknown (R3,
R134). -/
def State.ownOffer (s : State) : Option Nat :=
  match s.straps.curve, s.gauge.outfall.heldClass with
  | some c, some k => (offerCurve c)[k.val]?
  | _, _ => none

/-- The live fields of the own entry (R3). -/
def State.ownFields (s : State) : EntryFields :=
  { mode := s.timer.mode, polderClass := s.gauge.polder.heldClass, flood := s.gauge.flood, demand := s.alloc.demand,
    committed := s.committed, island := s.islandShare, offer := s.ownOffer, flags := s.inputs.flags,
    summary := s.ownSummary }

/-- The own entry (R3): always FRESH with age 0. -/
def State.ownEntry (s : State) : Entry :=
  { status := .fresh, age := 0, fields := some s.ownFields, startSeen := s.table.ownStartSeen,
    lastCount := some s.timer.count }

/-- The entry for station `k`: the live own entry, or the entry held. There is an own entry only once the straps have been
read without fault (R5). -/
def State.entry (s : State) (k : Station) : Entry :=
  if s.isRunning && decide (k = s.own) then s.ownEntry else s.table.entries[k]

/-- The entry held for station `k` is replaced. -/
def State.setEntry (k : Station) (e : Entry) (s : State) : State :=
  { s with table := { s.table with entries := s.table.entries.set k e } }

/-- The entry is FRESH or STALE. -/
def Entry.heard (e : Entry) : Bool := decide (e.status = .fresh) || decide (e.status = .stale)

/-- Ageing of one entry at a round end (R13). The place of the own number stays EMPTY and so does not age. -/
def Entry.aged (e : Entry) : Entry :=
  if e.status = .empty then e
  else { e with age := satAdd 255 e.age 1, status := statusOfAge (satAdd 255 e.age 1) }

/-- The ageing of every entry (R13). -/
def ageEntries (v : Vector Entry 16) : Vector Entry 16 :=
  ⟨(v.toList.map Entry.aged).toArray, by simp⟩

/-- An accepted announcement replaces the sender's entry (R8). -/
def applyAnnouncement (a : Announcement) (s : State) : State :=
  s.setEntry a.station
    { status := .fresh, age := 0, fields := some a.fields, startSeen := none, lastCount := some a.count }

/-- The entry a confirmation makes of an EMPTY one (R12). -/
def Entry.ofConfirmation (rating : Nat) (round : Word16) : Entry :=
  { status := .fresh, age := 0
    fields := some { mode := .joining, polderClass := none, flood := false, demand := 0, committed := rating, island := 0,
                     offer := none, flags := 0, summary := 0 }
    startSeen := some round, lastCount := none }

/-- A confirmation applied to an entry: R12 where it is EMPTY, R11 otherwise. -/
def Entry.confirm (rating : Nat) (round : Word16) (e : Entry) : Entry :=
  match e.fields with
  | none => Entry.ofConfirmation rating round
  | some f => { e with fields := some { f with committed := satAdd 63 f.committed rating }, startSeen := some round }

/-- A confirmation offered to the table (R11). -/
def applyConfirmation (c : Confirmation) (s : State) : State :=
  if c.rating.toNat = 0 ∨ 8 < c.rating.toNat ∨ c.station = s.own then s
  else s.setEntry c.station ((s.table.entries[c.station]).confirm c.rating.toNat s.timer.count)

/-- The reservation of an entry (R14); the own entry is FRESH and reserves nothing. -/
def Entry.reservation (e : Entry) : Nat :=
  match e.status, e.fields with
  | .lost, some f => if e.age < 248 then f.committed else min f.committed f.island
  | _, _ => 0

/-- What an entry adds to the raw flag set (R16). -/
def Entry.rawFlags (e : Entry) : FlagSet :=
  match e.fields with
  | some f => if e.heard then f.flags else 0
  | none => 0

/-- The raw district flag set (R16): own inputs and the inputs of every FRESH or STALE entry. -/
def State.rawFlagSet (s : State) : FlagSet :=
  stationList.foldl (fun f k => f ||| (s.entry k).rawFlags) 0

/-- The flag change queue after a push: appended to no or one record, and over the second of two (R20). -/
def pushRecord (r : FlagRecord) : List FlagRecord → List FlagRecord
  | [] => [r]
  | first :: _ => [first, r]

/-- A record is pushed and FLAG CHANGE is set (R20). -/
def pushFlagChange (r : FlagRecord) (s : State) : State :=
  State.raise .flagChange
    { s with table := { s.table with queue := pushRecord r s.table.queue,
                                     overrun := s.table.overrun || decide (2 ≤ s.table.queue.length) } }

/-! ### The players (chapter 6) -/

/-- An IDLE player that holds `speed` (R112, R114). -/
def Player.idle (speed : Nat) : Player :=
  { playing := false, mode := none, start := none, step := none, tick := none, timeLeft := none, runaway := 0,
    finish := false, speed := speed }

/-- The step at index `i` begins (R111). -/
def Player.beginStep (mem : Vector ProfileStep 64) (i : Fin 64) (p : Player) : Player :=
  { p with step := some i, speed := (mem[i]).speed, timeLeft := some ((mem[i]).hold * p.tick.getD 0) }

/-- A play begins at index `i` (R108, R110): the tick is latched, the runaway count and the finish request are cleared. A
play in progress has ended as a cut ends it. -/
def Player.beginPlay (mem : Vector ProfileStep 64) (rate : Nat) (mode : PlayMode) (i : Fin 64) : Player :=
  Player.beginStep mem i
    { playing := true, mode := some mode, start := some i, step := none, tick := some (100000 * rate), timeLeft := none,
      runaway := 0, finish := false, speed := 0 }

/-- A finish request (R113). -/
def Player.requestFinish (p : Player) : Player := if p.playing then { p with finish := true } else p

/-- How the completion of a step leaves a player (R111, R112, R115). -/
inductive Completion where
  | goesOn (p : Player)
  | ends (p : Player)
  | runaway (p : Player)
  deriving DecidableEq, Repr

/-- The current step of a PLAYING player completes (R111). -/
def Player.complete (mem : Vector ProfileStep 64) (p : Player) (cur : Fin 64) : Completion :=
  if (mem[cur]).endMark then
    if p.mode = some .loop ∧ p.finish = false then
      .goesOn (Player.beginStep mem (p.start.getD cur) { p with runaway := 0 })
    else .ends (Player.idle p.speed)
  else if p.finish then .ends (Player.idle p.speed)
  else if 64 ≤ p.runaway + 1 then .runaway (Player.idle 0)
  else .goesOn (Player.beginStep mem (cur + 1) { p with runaway := p.runaway + 1 })

/-- The player of pump `k` begins a play (R110). -/
def beginPlay (k : PumpIx) (mode : PlayMode) (i : Fin 64) (s : State) : State :=
  s.setPlayer k (Player.beginPlay s.profile (s.pointers[k]).rate mode i)

/-- A cut request to the player of pump `k` (R114). -/
def cutPlay (k : PumpIx) (s : State) : State := s.setPlayer k (Player.idle 0)

/-- Some player is PLAYING (R117). -/
def State.anyPlaying (s : State) : Bool := pumpList.any (fun k => (s.player k).playing)

/-! ### The pump controllers (chapter 5) -/

/-- The drive of pump `k` goes to off at once, without waiting for the end of the period (R101). -/
def dropDrive (k : PumpIx) (s : State) : State :=
  { s with drives := { s.drives with duty := s.drives.duty.set k 0 } }

/-- A pump record after one more whole second worked (R99). -/
def Pump.countSecond (p : Pump) : Pump :=
  if 60 ≤ p.accumulator + 1 then
    { p with accumulator := 0, runMinutes := satAdd 16777215 p.runMinutes 1, secondTimer := some 1000000 }
  else { p with accumulator := p.accumulator + 1, secondTimer := some 1000000 }

/-- A whole second of a run is complete at this instant and not yet counted (R99). -/
def Pump.secondDue (p : Pump) : Bool := p.state.runs && decide (p.secondTimer = some 0)

/-- A pump record with the whole second that is complete at this instant counted (R99). -/
def Pump.countDue (p : Pump) : Pump := if p.secondDue then p.countSecond else p

/-- What a pump record loses on leaving RAMP_UP and RUNNING (R84, R91, R94, R99): a whole second complete at that instant counts,
and a part of a second is dropped. -/
def Pump.leaveRun (p : Pump) : Pump :=
  { p.countDue with finishing := false, feedbackTimer := none, supervised := false, missCount := 0, minRunTimer := none,
                    pastMinRun := false, secondTimer := none }

/-- A pump record on entry to RESTING (R92). -/
def Pump.toResting (p : Pump) : Pump :=
  { p.leaveRun with state := .resting, primeTimer := none, restTimer := some 120000000 }

/-- Entry to RESTING (R92): drive off, play cut, the rest timer starts. -/
def enterResting (k : PumpIx) (s : State) : State :=
  dropDrive k (cutPlay k (s.setPump k (s.pump k).toResting))

/-- Entry to RAMP_DOWN: the down play is asked for, and the run's timers stop (R83, R84, R108). -/
def enterRampDown (k : PumpIx) (s : State) : State :=
  beginPlay k .oneShot (s.pointers[k]).down
    (s.setPump k { (s.pump k).leaveRun with state := .rampDown })

/-- A pump record on entry to RAMP_UP (R86, R88). -/
def Pump.toRampUp (p : Pump) : Pump :=
  { p with state := .rampUp, finishing := false, primeTimer := none, minRunTimer := some 300000000,
           feedbackTimer := some 10000000, pastMinRun := false, supervised := false, missCount := 0,
           secondTimer := some 1000000 }

/-- Entry to RAMP_UP (R88): the up play begins. -/
def enterRampUp (k : PumpIx) (s : State) : State :=
  beginPlay k .oneShot (s.pointers[k]).up (s.setPump k (s.pump k).toRampUp)

/-- Entry to RUNNING (R89): the run play begins in loop mode, or the player keeps its speed where run start is none. -/
def enterRunning (k : PumpIx) (s : State) : State :=
  let s := s.setPump k { s.pump k with state := .running }
  match (s.pointers[k]).run with
  | some i => beginPlay k .loop i s
  | none => s

/-- A pump record on entry to FAULTED (R93). -/
def Pump.toFaulted (c : FaultCause) (p : Pump) : Pump :=
  { p.leaveRun with state := .faulted, cause := some c, primeTimer := none, restTimer := none }

/-- Entry to FAULTED (R93): drive off, valve closed, play cut, cause recorded, PUMP FAULT set. -/
def faultPump (k : PumpIx) (c : FaultCause) (s : State) : State :=
  State.raise .pumpFault (dropDrive k (cutPlay k (s.setPump k ((s.pump k).toFaulted c))))

/-- An urgent stop reaching pump `k` (R82). -/
def urgentStop (k : PumpIx) (s : State) : State :=
  if (s.pump k).state.active then enterResting k s else s

/-- A shed stop reaching pump `k` (R83). -/
def shedStop (k : PumpIx) (s : State) : State :=
  match (s.pump k).state with
  | .priming => enterResting k s
  | .rampUp | .running => enterRampDown k s
  | .rampDown | .idle | .resting | .held | .faulted | .absent => s

/-- The mark FINISHING is set: the player makes its current step the last (R113), or, where a RUNNING pump plays no step, the
pump enters RAMP_DOWN at once (R84). R59 says that a demand stop leaves C as it is at its settle point; where the pump plays no
step the two rules do not agree, and C falls with the stop. DESIGN CHOICE, unsafe (log 32). -/
def markFinishing (k : PumpIx) (s : State) : State :=
  if (s.player k).playing then
    State.setPlayer k (s.player k).requestFinish (s.setPump k { s.pump k with finishing := true })
  else if (s.pump k).state = .running then enterRampDown k s
  else s.setPump k { s.pump k with finishing := true }

/-- A demand stop reaching pump `k`, one that disregards minimum run or not (R84). -/
def demandStop (disregard : Bool) (k : PumpIx) (s : State) : State :=
  match (s.pump k).state with
  | .priming => enterResting k s
  | .rampUp | .running =>
    if (s.pump k).finishing then s
    else if disregard || (s.pump k).pastMinRun then markFinishing k s
    else s
  | .rampDown | .idle | .resting | .held | .faulted | .absent => s

/-- A start reaching pump `k` (R85): from IDLE to PRIMING, and through it where PRIME_SENSE is already asserted (R86). -/
def startPump (k : PumpIx) (s : State) : State :=
  if (s.pump k).state = .idle then
    let s := s.setPump k { s.pump k with state := .priming, primeTimer := some 30000000 }
    if s.inputs.primeSense.getLsbD k.val then enterRampUp k s else s
  else s

/-! ### Scans and the sampling mode (R127, R135, R136) -/

/-- P3 is scanned: pump 2 or pump 3 is fitted (R121). -/
def State.sumpBScanned (s : State) : Bool := decide (3 ≤ s.straps.fitted)

/-- The outfall group is scanned: the station is a gauge station (R121). -/
def State.outfallScanned (s : State) : Bool := s.straps.curve.isSome

/-- A scan at its first probe. -/
def Scan.begin (p : Fin 6) : Scan := { probe := p, first := none, tried := 0, windowTime := 0 }

/-- A group begins a scan unless it is scanning. -/
def GaugeGroup.beginScan (p : Fin 6) (g : GaugeGroup) : GaugeGroup :=
  if g.scan.isSome then g else { g with scan := some (Scan.begin p) }

/-- Each group that is scanned and not already scanning begins a scan (R136). -/
def beginScans (s : State) : State :=
  { s with gauge := { s.gauge with polder := s.gauge.polder.beginScan 0,
                                   outfall := if s.outfallScanned then s.gauge.outfall.beginScan 4
                                              else s.gauge.outfall } }

/-- Some pump is in an active state (R135). -/
def State.anyActive (s : State) : Bool := pumpList.any (fun k => (s.pump k).state.active)

/-- The sampling mode is to be CONTINUOUS (R135). -/
def State.wantsContinuous (s : State) : Bool :=
  s.anyActive || s.gauge.sumpA.low || s.gauge.sumpB.low ||
    (match s.gauge.polder.heldClass with
     | none => true
     | some c => decide (2 ≤ c.val))

/-- The sampling mode follows its conditions (R135, R136). -/
def syncSampling (s : State) : State :=
  match s.gauge.sampling, s.wantsContinuous with
  | .continuous, false => { s with gauge := { s.gauge with sampling := .periodic, waitCount := 0 } }
  | .periodic, true => beginScans { s with gauge := { s.gauge with sampling := .continuous, waitCount := 0 } }
  | .continuous, true => s
  | .periodic, false => s

/-! ### A start's validity (R69) -/

/-- A start of pump `k` is valid (R69). -/
def State.startValid (s : State) (k : PumpIx) : Bool :=
  decide ((s.pump k).state = .idle) && !s.sumpLow k && !districtStop s.table.accepted && !startHold s.table.accepted &&
    decide (s.timer.mode = .member) && !s.alloc.shedSinceSettle

/-- The pending start is valid. -/
def State.pendingValid (s : State) : Bool :=
  match s.arb.pendingStart with
  | some k => s.startValid k
  | none => false

/-- A contending station whose start has ceased to be valid withdraws at once and records nothing (R69). -/
def watchStart (s : State) : State :=
  if s.arb.part = .contending ∧ s.pendingValid = false then
    { s with arb := { s.arb with part := .withdrawn, pendingStart := none } }
  else s

/-- What follows every event at once: the sampling mode and the watch of a start in the window. -/
def follow (s : State) : State := watchStart (syncSampling s)

/-- An event acts while the blocks run, and what follows it at once comes with it (R163); otherwise nothing happens
(R25, R159, R162). -/
def whenRunning (f : State → State) (s : State) : State :=
  if s.isRunning then follow (f s) else s

end Sys2Proof.Machine
end

