-- ==== Sys2Proof/Machine/LineOps.lean ====
section
/-! DEFINITION. The operations of the line interface (chapter 8): holds, counters, the cable check, the lock machines and the
active cable. -/

namespace Sys2Proof.Machine

open Sys2Proof

/-- The other cable. -/
def otherCable : Cable → Cable
  | .a => .b
  | .b => .a

/-- The cable that was active at the begin of character or bit cell `n`, from those taken up so far; where the begin has not come
by the part's own time, the one active now (R150, log 23). -/
def latchedCable (cables : List Cable) (n : Nat) (active : Cable) : Cable := (cables[n]?).getD active

/-- What the line interface holds for cable `c`. -/
def Line.cable (l : Line) : Cable → CableState
  | .a => l.a
  | .b => l.b

/-- What the line interface holds for cable `c` is replaced. -/
def setCable (c : Cable) (x : CableState) (s : State) : State :=
  match c with
  | .a => { s with line := { s.line with a := x } }
  | .b => { s with line := { s.line with b := x } }

/-- The decoders are held (R144): the part transmits a frame, or the arbitration bits of its window are under way. -/
def State.decodersHeld (s : State) : Bool := s.line.tx.isSome || s.line.windowHold

/-- A hold begins: the frame under way is abandoned, and when the hold ends the decoder waits for release (R144). A frame whose
last character is complete but not yet at its end has not arrived (R142) and is abandoned like any other. DEDUCED, unsafe
(log 37). -/
def CableState.hold (x : CableState) : CableState := { x with decoder := .waitRelease, assembly := none }

/-- A hold of both decoders begins (R144). -/
def holdDecoders (s : State) : State :=
  { s with line := { s.line with a := s.line.a.hold, b := s.line.b.hold } }

/-- Both error counters of a cable at 0 (R145). -/
def CableState.clearCounters (x : CableState) : CableState := { x with parityCount := 0, checkCount := 0 }

/-- A character fault counts while the cable is LOCKED (R145). -/
def CableState.countParity (x : CableState) : CableState :=
  if x.locked then { x with parityCount := satAdd 255 x.parityCount 1 } else x

/-- A check failure counts while the cable is LOCKED (R145). -/
def CableState.countCheck (x : CableState) : CableState :=
  if x.locked then { x with checkCount := satAdd 255 x.checkCount 1 } else x

/-- The frame is complete (R142). -/
def Assembly.complete (x : Assembly) : Bool := decide (x.kind.length ≤ x.chars.length)

/-- The frame that takes a further character: a complete one, which waits for its arrival, takes none (log 20). -/
def CableState.underWay (x : CableState) : Option Assembly := x.assembly.filter (fun f => !f.complete)

/-- The next character of the frame under way has not begun within 352 µs after the end of the one before (R142): one that begins
at the last instant is complete 704 µs after the completion of the one before, and none has been completed by then. -/
def CableState.overdue (x : CableState) : Bool := x.underWay.any (fun f => decide (704 < f.sinceChar))

/-- The frame under way is truncated (R142), a check failure where all its characters were good (R143). -/
def CableState.truncated (x : CableState) : CableState :=
  match x.underWay with
  | none => x
  | some f => { (if f.void then x else x.countCheck) with assembly := none }

/-! ### The cable check (R153 to R155) -/

/-- The check ends with a result: it is STOPPED, comparisons are dropped and CHECK DONE is set (R155). -/
def endCheck (r : CheckResult) (s : State) : State :=
  State.raise .checkDone
    { s with line := { s.line with check := { s.line.check with running := false, armed := false, result := r,
                                                                roundErrored := false, opened := [], arrivals := [] } } }

/-- A RUNNING check is aborted (R155). -/
def abortCheck (s : State) : State := if s.line.check.running then endCheck .aborted s else s

/-- The judgement of the round that ends, the first act of the line interface's round-end work (R155). -/
def checkRoundEnd (s : State) : State :=
  let k := s.line.check
  if k.running then
    if k.armed then
      let errored := if k.roundErrored then satAdd 255 k.errored 1 else k.errored
      let left := k.roundsLeft - 1
      let s := { s with line := { s.line with check :=
        { k with errored := errored, roundsLeft := left, roundErrored := false,
                 pulse := if k.roundErrored then some 10000 else k.pulse } } }
      if left = 0 then endCheck (if errored = 0 then .pass else .fail) s else s
    else { s with line := { s.line with check := { k with armed := true, roundErrored := false } } }
  else s

/-- The arrivals within 1.0 ms (R154). -/
def recentArrivals (k : CableCheck) : List StandbyArrival := k.arrivals.filter (fun r => decide (r.age ≤ 1000))

/-- A frame valid on the active cable: its comparison closes on a frame that arrived on the standby within the 1.0 ms before
it, and is open otherwise (R154, log 15). -/
def checkActiveFrame (cs : List Byte) (s : State) : State :=
  let k := s.line.check
  if k.running && k.armed then
    match recentArrivals k with
    | r :: _ =>
      { s with line := { s.line with check := { k with roundErrored := k.roundErrored || decide (r.chars ≠ some cs) } } }
    | [] => { s with line := { s.line with check := { k with opened := k.opened ++ [⟨cs, 0⟩] } } }
  else s

/-- A frame arrives on the standby cable, `none` where it is not valid: it closes every open comparison, matched or unmatched,
and is kept for the frames of the active cable that arrive within 1.0 ms after it (R154, log 15). -/
def checkStandbyFrame (frame : Option (List Byte)) (s : State) : State :=
  let k := s.line.check
  if k.running then
    { s with line := { s.line with check :=
        { k with roundErrored := k.roundErrored || k.opened.any (fun o => decide (frame ≠ some o.chars)),
                 opened := [], arrivals := k.arrivals ++ [⟨frame, 0⟩] } } }
  else s

/-! ### Lock machines and the active cable (R146, R148, R149) -/

/-- A lock machine at a round end (R146). -/
def CableState.roundEnd (x : CableState) : CableState :=
  match x.frameMark, x.locked with
  | true, false =>
    { x with frameMark := false, silentRounds := 0, frameRounds := satAdd 2 x.frameRounds 1,
             locked := decide (2 ≤ x.frameRounds + 1) }
  | true, true => { x with frameMark := false, silentRounds := 0, frameRounds := 2 }
  | false, true =>
    if 3 ≤ x.silentRounds + 1 then
      CableState.clearCounters { x with frameRounds := 0, silentRounds := 3, locked := false }
    else { x with frameRounds := 0, silentRounds := x.silentRounds + 1 }
  | false, false => { x with frameRounds := 0 }

/-- The active cable changes; a RUNNING check is aborted (R150, R155). -/
def setActive (c : Cable) (s : State) : State :=
  abortCheck { s with line := { s.line with active := c } }

/-- The test of R148 at a round end. -/
def switchTest (s : State) : State :=
  if !(s.line.cable s.line.active).locked && (s.line.cable (otherCable s.line.active)).locked then
    State.raise .cableSwitch (setActive (otherCable s.line.active) s)
  else s

/-- The line interface's round-end work: the check's judgement, the lock machines, the test of the two cables (R155, R146,
R148). -/
def lineRoundEnd (s : State) : State :=
  let s := checkRoundEnd s
  switchTest { s with line := { s.line with a := s.line.a.roundEnd, b := s.line.b.roundEnd } }

/-! ### Transmission (R151) -/

/-- A frame of the part's own begins on both cables: the decoders are held, and read-back is on the active cable (R144,
R150). -/
def beginTransmission (kind : FrameKind) (cs : List Byte) (s : State) : State :=
  let s := holdDecoders s
  { s with line := { s.line with handed := none,
                                 tx := some { kind := kind, chars := cs, returned := 0, cables := [s.line.active],
                                              standby := [], elapsed := 0 } } }

/-- The character comes back unchanged: its start edge in time, start driven, no fault, the value sent (R151). -/
def returnsUnchanged (c : Byte) : Returned → Bool
  | .noEdge => false
  | .char r => decide (judgeReadings r = .char c false false)

/-- The value of a returned character, where it is one. -/
def returnedValue : Returned → Option (Byte × Bool)
  | .noEdge => none
  | .char r => match judgeReadings r with
    | .falseStart => none
    | .char v p q => some (v, !p && !q)

/-- The copy of an own frame on the standby cable: none where a character is missing, so that no frame arrives there;
otherwise its characters where it is a valid frame (R154, log 16). -/
def standbyCopy (t : Transmission) : Option (Option (List Byte)) :=
  match t.standby.mapM returnedValue with
  | none => none
  | some vs =>
    let cs := vs.map Prod.fst
    if vs.all Prod.snd && decide (cs.length = t.kind.length) && frameCheckOk t.kind cs then some (some cs)
    else some none

/-- The check's comparison of an own frame (R154). -/
def checkOwnFrame (t : Transmission) (s : State) : State :=
  let s := checkActiveFrame t.chars s
  match standbyCopy t with
  | some frame => checkStandbyFrame frame s
  | none => s

/-- The end of a frame with a clean read-back (R151): the hold ends, the check compares it, and a confirmation is reported to
the start arbiter, counts for the window and replaces the window record (R75, R76). That the record takes the round count before a
held realignment of the same end is applied is the model's. DESIGN CHOICE, unsafe (log 48). -/
def finishTransmission (t : Transmission) (s : State) : State :=
  let s := checkOwnFrame t { s with line := { s.line with tx := none } }
  match t.kind with
  | .announcement => s
  | .confirmation =>
    let c := parseConfirmation t.chars
    let record : WindowRecord := { station := c.station, pump := c.pump, rating := c.rating, round := s.timer.count }
    let window := s.arb.window.map (fun w => ({ w with notFree := true } : Window))
    { s with arb := { s.arb with confirmClean := true, record := some record, window := window } }

end Sys2Proof.Machine
end

