-- ==== Sys2Proof/Machine/RoundOps.lean ====
section
/-! DEFINITION. The operations of the round timer (chapter 2): the choice of reference, the station mode, the round-end work of
every block, realignment, the judgement of announcements, and read-back failures. -/

namespace Sys2Proof.Machine

open Sys2Proof

/-! ### Reference and mode -/

/-- MEMBER or ISOLATED (R26). -/
def Mode.settled : Mode → Bool
  | .member | .isolated => true
  | .joining | .silent => false

/-- A candidate for timing reference (R26). -/
def State.referenceCandidate (s : State) (k : Station) : Bool :=
  if k = s.own then s.timer.mode.settled
  else match (s.entry k).fields with
    | some f => decide ((s.entry k).status = .fresh) && f.mode.settled
    | none => false

/-- The reference is chosen anew: the lowest-numbered candidate (R26). -/
def chooseReference (s : State) : State :=
  { s with timer := { s.timer with reference := stationList.find? s.referenceCandidate } }

/-- A change of station mode: MODE CHANGE is set and the reference is chosen anew (R26, R32). -/
def setMode (m : Mode) (s : State) : State :=
  if s.timer.mode = m then s
  else chooseReference (State.raise .modeChange { s with timer := { s.timer with mode := m } })

/-- The station goes to SILENT: it sends nothing more (R39, R40), a pending start of a won window becomes none (R78), and its
counts stand (R39, log 31). -/
def goSilent (s : State) : State :=
  if s.timer.mode = .silent then s
  else
    let s := { s with line := { s.line with handed := none, tx := none } }
    let s := if s.arb.part = .won then { s with arb := { s.arb with pendingStart := none } } else s
    setMode .silent s

/-- The station sends announcements: JOINING aligned, MEMBER or ISOLATED (R32, R40). -/
def State.announces (s : State) : Bool :=
  match s.timer.mode with
  | .joining => s.timer.aligned
  | .member => true
  | .isolated => true
  | .silent => false

/-- A read-back failure of the round (R38): counted once a round, and at 3 the station goes SILENT. -/
def countReadBackFailure (s : State) : State :=
  if s.timer.failedInRound then s
  else
    let s := { s with timer := { s.timer with failedInRound := true, readBackCount := s.timer.readBackCount + 1 } }
    if 3 ≤ s.timer.readBackCount then goSilent s else s

/-! ### The round end (R24) -/

/-- The table's round-end work: ageing, then the flag sets (R13, R16, R17, R20). -/
def tableRoundEnd (s : State) : State :=
  let s := { s with table := { s.table with entries := ageEntries s.table.entries } }
  let raw := s.rawFlagSet
  if raw = s.table.candidate ∧ raw ≠ s.table.accepted then
    pushFlagChange { flags := raw, round := s.timer.count } { s with table := { s.table with accepted := raw } }
  else { s with table := { s.table with candidate := raw } }

/-- Feedback supervision of pump `k` at a round end (R94). -/
def superviseFeedback (k : PumpIx) (s : State) : State :=
  let p := s.pump k
  if p.supervised && p.state.runs then
    if s.inputs.runFb.getLsbD k.val then s.setPump k { p with missCount := 0 }
    else if 2 ≤ p.missCount + 1 then faultPump k .runLost s
    else s.setPump k { p with missCount := p.missCount + 1 }
  else s

/-- The feedback reading of this round end would fault pump `k` (R94). -/
def State.readingFaults (s : State) (k : PumpIx) : Bool :=
  (s.pump k).supervised && (s.pump k).state.runs && !s.inputs.runFb.getLsbD k.val && decide (2 ≤ (s.pump k).missCount + 1)

/-- The pump's part of a round end: the urgent stop of an entering F1 (R19), and the feedback reading (R94). Where both meet
and the order matters, a free value gives it (log 8). -/
def pumpRoundEnd (stop : Bool) (k : PumpIx) (s : State) : State :=
  if stop && (s.pump k).state.active then
    if s.readingFaults k && !Config.stopBeforeReading s.free k then superviseFeedback k s else urgentStop k s
  else superviseFeedback k s

/-- The pump controllers' round-end work. -/
def pumpsRoundEnd (stop : Bool) (s : State) : State := pumpList.foldl (fun s k => pumpRoundEnd stop k s) s

/-- The wait count at a round end in PERIODIC, and the sampling mode after the pumps' changes (R136, log 9). -/
def gaugeRoundEnd (s : State) : State :=
  match s.gauge.sampling with
  | .periodic =>
    syncSampling
      (if 16 ≤ s.gauge.waitCount + 1 then beginScans { s with gauge := { s.gauge with waitCount := 0 } }
       else { s with gauge := { s.gauge with waitCount := s.gauge.waitCount + 1 } })
  | .continuous =>
    let s := syncSampling s
    match s.gauge.sampling with
    | .continuous => s
    | .periodic =>
      { s with gauge := { s.gauge with waitCount := if Config.roundEndCountsAtChange s.free then 1 else 0 } }

/-- The joining, unheard-round and read-back failure counts at a round end (R34, R36, R38, R39). In SILENT every count stands,
the joining count too: R34 holds it at 0 outside JOINING, and R39 lets it keep the value it had on entry. DESIGN CHOICE, unsafe
(log 31). -/
def countsRoundEnd (s : State) : State :=
  let t := s.timer
  let unheard := if t.roundMarked then 0 else satAdd 8 t.unheardCount 1
  let readBack := if t.failedInRound then t.readBackCount else 0
  match t.mode with
  | .silent => s
  | .isolated => { s with timer := { t with readBackCount := readBack } }
  | .member =>
    let s := { s with timer := { t with readBackCount := readBack, unheardCount := unheard } }
    if unheard = 8 then setMode .isolated { s with timer := { s.timer with joiningCount := 0 } } else s
  | .joining =>
    let joining := if t.roundMarked then t.joiningCount + 1 else 0
    let s := { s with timer := { t with readBackCount := readBack, unheardCount := unheard, joiningCount := joining } }
    if 2 ≤ joining then setMode .member { s with timer := { s.timer with joiningCount := 0 } }
    else if unheard = 8 then setMode .isolated { s with timer := { s.timer with joiningCount := 0 } }
    else s

/-- The round timer's round-end work: its counts, the round count, the marks of the new round and the reference. -/
def timerRoundEnd (s : State) : State :=
  let s := countsRoundEnd s
  chooseReference
    { s with timer := { s.timer with count := s.timer.count + 1, roundMarked := false, failedInRound := false,
                                     settleTaken := false, windowTaken := false, announceTaken := false } }

/-- F1 DISTRICT STOP enters the accepted set between the two states (R19). -/
def stopEnters (before after : State) : Bool :=
  districtStop after.table.accepted && !districtStop before.table.accepted

/-- The round-end work of every block (R24), but for the phase. -/
def roundEndWork (s : State) : State :=
  let lineDone := lineRoundEnd s
  let tableDone := tableRoundEnd lineDone
  let pumpsDone := pumpsRoundEnd (stopEnters lineDone tableDone) tableDone
  let s := timerRoundEnd (gaugeRoundEnd pumpsDone)
  { s with free := s.free + 1 }

/-! ### Realignment (R27 to R29) -/

/-- The instants of the schedule from `lo` up to `hi` are skipped: the settle point and the window at 448 ms, and the own
announcement 1.0 ms into the own slot (R28, log 13). An instant that falls together with the old phase and has not been taken is
skipped, and one that falls together with the new phase is not: DESIGN CHOICE, unsafe (log 42). A start wanted whose window is
skipped after its settle point stands until the next settle point: DESIGN CHOICE, unsafe (log 33). -/
def skipInstants (lo hi : Nat) (s : State) : State :=
  let own := 28000 * s.own.val + 1000
  let s :=
    if lo ≤ 448000 ∧ 448000 < hi then { s with timer := { s.timer with settleTaken := true, windowTaken := true } } else s
  if lo ≤ own ∧ own < hi then
    { s with timer := { s.timer with announceTaken := true }, line := { s.line with handed := none } }
  else s

/-- The phase a frame of station `k` sets, `age` after its first start edge (R27). -/
def alignedPhase (k : Station) (age : Nat) : Nat := (28000 * k.val + 1000 + age) % 500000

/-- How far the phase would have to move forward on the circle of the round. -/
def forwardMove (old new : Nat) : Nat := (new + 500000 - old % 500000) % 500000

/-- A realignment (R27, R28): a move of at most 250 ms forward skips the instants it passes and takes the round end it passes;
any other move is backward and leaves what has been taken. A round end that is due at the very instant of a backward move and has
not been taken waits until the phase comes to it again. DESIGN CHOICE, unsafe (log 41). An announcement composed and not yet begun
stands handed over through a backward move. DESIGN CHOICE, unsafe (log 44). The schedule that it replaces is noted for the out-of-step
test (R30). -/
def realign (k : Station) (frameCount : Word16) (age : Nat) (s : State) : State :=
  let old := s.timer.phase
  let oldCount := s.timer.count
  let new := alignedPhase k age
  let move := forwardMove old new
  let s :=
    if move ≤ 250000 then
      if 500000 ≤ old + move then skipInstants 0 new (roundEndWork (skipInstants old 500000 s))
      else skipInstants old new s
    else s
  let phaseChange : Word16 := if 2000 < min move (500000 - move) then 1 else 0
  let countChange : Word16 := if s.timer.count = frameCount then 0 else 1
  { s with timer := { s.timer with phase := new, count := frameCount,
                                   realignCount := s.timer.realignCount + phaseChange + countChange,
                                   replaced := s.timer.replaced ++ [⟨old, oldCount, 0⟩] } }

/-- A realignment is made, or held while the station holds a won window up to the end of its confirmation; a second one
replaces the first (R29). -/
def realignOrHold (k : Station) (frameCount : Word16) (age : Nat) (s : State) : State :=
  match s.arb.window with
  | some w =>
    if w.holding then
      { s with timer := { s.timer with held := some { sender := k, frameCount := frameCount, edgeAge := age } } }
    else realign k frameCount age s
  | none => realign k frameCount age s

/-- The hold of R29 ends, and a held realignment is applied; its frame belongs to the round that then stands (R28, log 11). -/
def releaseRealignment (s : State) : State :=
  let window := s.arb.window.map (fun w => ({ w with holding := false } : Window))
  let s : State := { s with arb := { s.arb with window := window } }
  match s.timer.held with
  | some h =>
    let s := realign h.sender h.frameCount h.edgeAge { s with timer := { s.timer with held := none } }
    { s with timer := { s.timer with roundMarked := true } }
  | none => s

/-! ### Announcements and confirmations heard (R6 to R12, R30 to R37) -/

/-- The distance of two phases on the circle of the round. -/
def phaseDistance (x y : Nat) : Nat := min (forwardMove x y) (500000 - forwardMove x y)

/-- A valid announcement is out of step (R30). `edgePhase` and `edgeCount` are the own phase and round count at its first
start edge. -/
def State.outOfStep (s : State) (a : Announcement) (edgePhase : Nat) (edgeCount : Word16) : Bool :=
  let settled := match a.mode with
    | some m => m.settled
    | none => false
  let exempt := match s.timer.reference with
    | some r => decide (a.station = r) || (decide (a.station < r) && settled)
    | none => false
  decide (s.timer.mode = .member) && !exempt &&
    (decide (a.count ≠ edgeCount) || decide (6000 < phaseDistance edgePhase (28000 * a.station.val + 1000)))

/-- The station waits for its first accepted frame: JOINING not yet aligned, or ISOLATED (R33, R37). -/
def State.awaitsFirstFrame (s : State) : Bool :=
  (decide (s.timer.mode = .joining) && !s.timer.aligned) || decide (s.timer.mode = .isolated)

/-- The station enters JOINING aligned from ISOLATED (R37). -/
def rejoin (s : State) : State :=
  setMode .joining { s with timer := { s.timer with aligned := true, joiningCount := 0 } }

/-- What an accepted frame does to the mode: an ISOLATED station rejoins (R37, log 12), and a first frame aligns a JOINING
one (R33). -/
def alignMode (first : Bool) (s : State) : State :=
  if s.timer.mode = .isolated then rejoin s
  else if first && decide (s.timer.mode = .joining) then { s with timer := { s.timer with aligned := true } }
  else s

/-- An accepted announcement (R8, R26, R27, R31, R33, R37): the table applies it, the reference is chosen, the timer is
realigned where the sender is the reference or the frame is the first, and the round that then stands is marked (log 11). -/
def acceptAnnouncement (a : Announcement) (age : Nat) (s : State) : State :=
  let first := s.awaitsFirstFrame
  let s := chooseReference (applyAnnouncement a s)
  let s := if first || decide (s.timer.reference = some a.station) then realignOrHold a.station a.count age s else s
  let s := alignMode first s
  { s with timer := { s.timer with roundMarked := true } }

/-- A frame that bears the own number sends a JOINING station to SILENT (R35). -/
def duplicateHeard (s : State) : State := if s.timer.mode = .joining then goSilent s else s

/-- A valid announcement is offered (R6, R9, R30, R31). -/
def offerAnnouncement (x : Assembly) (s : State) : State :=
  let a := parseAnnouncement x.chars
  if a.station = s.own then duplicateHeard s
  else if a.mode = none then s
  else if s.outOfStep a x.edgePhase x.edgeCount then s
  else acceptAnnouncement a x.edgeAge s

/-- A valid confirmation is offered (R11, R35, R75, R76). -/
def offerConfirmation (x : Assembly) (s : State) : State :=
  let c := parseConfirmation x.chars
  let s := applyConfirmation c s
  let record : WindowRecord := { station := c.station, pump := c.pump, rating := c.rating, round := s.timer.count }
  let window := s.arb.window.map (fun w => ({ w with notFree := true } : Window))
  let s : State := { s with arb := { s.arb with record := some record, window := window } }
  if c.station = s.own then duplicateHeard s else s

/-- A valid frame of the active cable is offered (R143). -/
def offerFrame (x : Assembly) (s : State) : State :=
  match x.kind with
  | .announcement => offerAnnouncement x s
  | .confirmation => offerConfirmation x s

/-! ### Read-back failures (R38, R72, R73, R151) -/

/-- The start of a won window is dropped (R72). -/
def dropStart (s : State) : State := { s with arb := { s.arb with pendingStart := none } }

/-- A read-back failure of the frame under way (R151): the frame stops, the failure is counted (R38), and after a confirmation
the start is dropped and a held realignment is applied (R73). -/
def failReadBack (t : Transmission) (s : State) : State :=
  let s := countReadBackFailure { s with line := { s.line with tx := none } }
  match t.kind with
  | .announcement => s
  | .confirmation => releaseRealignment (dropStart s)

end Sys2Proof.Machine
end

