-- ==== Sys2Proof/Machine/Clock.lean ====
section
/-! DEFINITION. What the part does of itself when no command waits: an event that the state makes due is put in the queue, and
where none is due one microsecond passes (log 2, log 3, log 4, log 29). -/

namespace Sys2Proof.Machine

open Sys2Proof

/-- One command where a condition holds. -/
def dueIf (b : Bool) (c : Instr) : List Instr := if b then [c] else []

/-- The start of the own slot (R23). -/
def State.slotStart (s : State) : Nat := 28000 * s.own.val

/-- The events of the schedule of the round that are due (R23, R24, R40). The window opens after the settle point (R23). -/
def dueSchedule (s : State) : List Instr :=
  let t := s.timer
  dueIf (decide (500000 ≤ t.phase)) (.roundEnd s.inputs)
    ++ dueIf (decide (t.phase = 448000) && !t.settleTaken) .settlePoint
    ++ dueIf (decide (t.phase = 448000) && t.settleTaken && !t.windowTaken) .windowOpening
    ++ dueIf (s.announces && !t.announceTaken && decide (s.slotStart ≤ t.phase) && decide (t.phase ≤ s.slotStart + 1000))
        (.ownSlotStart s.inputs)
    ++ dueIf (s.line.handed.isSome && decide (t.phase = s.slotStart + 1000)) .announcementTransmitBegin

/-- The events of the start window that are due, by its elapsed time (R64), and the end of an own frame that has come back
whole (R151). The frame and the hold of the decoders last until its last character has been judged, which may be up to 16 µs after
the end of that character. DESIGN CHOICE, unsafe (log 43). -/
def dueWindow (s : State) : List Instr :=
  (match s.arb.window with
   | none => []
   | some w =>
     dueIf (decide (7000 ≤ w.elapsed) && s.line.windowHold) .lastBitEnd
       ++ dueIf (decide (10000 ≤ w.elapsed) && w.holding && s.line.tx.isNone && !s.arb.confirmClean)
           (.confirmationBegin s.inputs)
       ++ dueIf (decide (32000 ≤ w.elapsed)) .windowEnd)
    ++ (match s.line.tx with
        | none => []
        | some t =>
          dueIf (decide (t.returned = t.chars.length) && decide (352 * t.chars.length ≤ t.elapsed)) .transmissionEnd)
    ++ dueIf s.arb.confirmClean (.startTakenOrDropped s.inputs)

/-- A frame's last character is at its end: 16 µs after the middle of its stop bit (R141, R142). -/
def CableState.arrivalDue (x : CableState) : Bool :=
  match x.assembly with
  | none => false
  | some f => decide (f.kind.length ≤ f.chars.length) && decide (16 ≤ f.sinceChar)

/-- The events of reception and of the cable check that are due (R142, R154, R155). A frame is truncated by the time alone once no
character begun in time can still come. DESIGN CHOICE, unsafe (log 47). -/
def dueLine (s : State) : List Instr :=
  dueIf s.line.a.arrivalDue (.frameArrival .a s.inputs)
    ++ dueIf s.line.b.arrivalDue (.frameArrival .b s.inputs)
    ++ dueIf s.line.a.overdue (.frameTruncated .a)
    ++ dueIf s.line.b.overdue (.frameTruncated .b)
    ++ (match s.line.check.opened with
        | [] => []
        | o :: _ => dueIf (decide (1000 ≤ o.age)) .checkComparisonTimeout)
    ++ dueIf (decide (s.line.check.pulse = some 0)) .checkPulseEnd

/-- The events of pump `k` and of its player that are due (R86, R87, R90, R91, R92, R99, R111). -/
def duePump (s : State) (k : PumpIx) : List Instr :=
  let p := s.pump k
  dueIf (decide (p.state = .priming) && s.inputs.primeSense.getLsbD k.val) (.primeSenseAsserted k)
    ++ dueIf (decide (p.primeTimer = some 0)) (.primeTimerExpiry k)
    ++ dueIf (decide (p.feedbackTimer = some 0)) (.feedbackDueExpiry k (s.inputs.runFb.getLsbD k.val))
    ++ dueIf (decide (p.minRunTimer = some 0)) (.minimumRunExpiry k)
    ++ dueIf (decide (p.restTimer = some 0)) (.restTimerExpiry k)
    ++ dueIf (decide (p.secondTimer = some 0)) (.runSecond k)
    ++ dueIf ((s.player k).playing && (s.player k).step.isSome && decide ((s.player k).timeLeft = some 0))
        (.stepCompletion k)

/-- The events that the state makes due. -/
def due (s : State) : List Instr :=
  match s.cond with
  | .reset _ | .strapFault => []
  | .strapReading => dueIf (decide (s.strapTime = 0)) (.strapReadingComplete s.strapPins)
  | .running => dueSchedule s ++ dueWindow s ++ dueLine s ++ pumpList.flatMap (duePump s)

/-! ### One microsecond -/

/-- A running time runs down; a stopped one stays stopped (R80). -/
def runDown (t : Option Nat) : Option Nat := t.map (fun n => n - 1)

/-- A pump's timers run down (R80). -/
def Pump.pass (p : Pump) : Pump :=
  { p with primeTimer := runDown p.primeTimer, feedbackTimer := runDown p.feedbackTimer,
           minRunTimer := runDown p.minRunTimer, restTimer := runDown p.restTimer, secondTimer := runDown p.secondTimer }

/-- A player's step time runs down (R111). -/
def Player.pass (p : Player) : Player := { p with timeLeft := runDown p.timeLeft }

/-- The time in the window of a scan under way (R123). -/
def GaugeGroup.pass (g : GaugeGroup) : GaugeGroup :=
  { g with scan := g.scan.map (fun c => { c with windowTime := c.windowTime + 1 }) }

/-- The ages of the frame under way on a cable (R142). -/
def CableState.pass (x : CableState) : CableState :=
  { x with assembly := x.assembly.map (fun f => { f with edgeAge := f.edgeAge + 1, sinceChar := f.sinceChar + 1 }) }

/-- The cables taken up after one more microsecond: at the begin of each of `count` spans of `span` microseconds the active one
(R150). -/
def latchCable (span count elapsed : Nat) (active : Cable) (cables : List Cable) : List Cable :=
  if (elapsed + 1) % span = 0 ∧ elapsed + 1 < span * count then cables ++ [active] else cables

/-- The time of an own frame under way; at the start edge of each character, 352 µs apart, the cable of its read-back is the
active one (R140, R150, log 23). -/
def Transmission.pass (active : Cable) (t : Transmission) : Transmission :=
  { t with elapsed := t.elapsed + 1, cables := latchCable 352 t.chars.length t.elapsed active t.cables }

/-- The ages of the check's comparisons; an arrival older than 1.0 ms takes part in none (R154). -/
def CableCheck.pass (k : CableCheck) : CableCheck :=
  { k with opened := k.opened.map (fun o => { o with age := o.age + 1 }),
           arrivals := (k.arrivals.map (fun r => { r with age := r.age + 1 })).filter (fun r => decide (r.age ≤ 1000)),
           pulse := runDown k.pulse }

/-- The times of the line interface. -/
def Line.pass (l : Line) : Line :=
  { l with a := l.a.pass, b := l.b.pass, tx := l.tx.map (Transmission.pass l.active), check := l.check.pass }

/-- The phase runs, and with it the age of a held realignment (R24, R29). A replaced schedule is kept for as long as the lead of a
frame that began on it can still be incomplete, which is 336 µs (R30, R141). -/
def RoundTimer.pass (t : RoundTimer) : RoundTimer :=
  { t with phase := t.phase + 1, held := t.held.map (fun h => { h with edgeAge := h.edgeAge + 1 }),
           replaced := (t.replaced.map (fun r => { r with age := r.age + 1 })).filter (fun r => decide (r.age ≤ 336)) }

/-- The elapsed time of the window under way (R64); as each of the seven bit cells begins, the cable of its reading is the active
one (R68, R150). -/
def Window.pass (active : Cable) (w : Window) : Window :=
  { w with elapsed := w.elapsed + 1, cables := latchCable 1000 7 w.elapsed active w.cables }

/-- The time of the window under way. -/
def Arbiter.pass (active : Cable) (a : Arbiter) : Arbiter := { a with window := a.window.map (Window.pass active) }

/-- The speed of pump `k` at its drive: its player's in RAMP_UP, RUNNING and RAMP_DOWN, and 0 in every other state (R101). -/
def State.driveSpeed (s : State) (k : PumpIx) : Nat :=
  match (s.pump k).state with
  | .rampUp | .running | .rampDown => (s.player k).speed
  | .absent | .held | .idle | .resting | .priming | .faulted => 0

/-- The output time base runs on by `counts`; where a period ends, each speed reference takes up its present duty, ten times
the speed (R101, log 10). -/
def runDrives (counts : Nat) (s : State) : Drives :=
  { duty := if 1000 ≤ s.drives.position + counts then
              #v[10 * s.driveSpeed 0, 10 * s.driveSpeed 1, 10 * s.driveSpeed 2, 10 * s.driveSpeed 3]
            else s.drives.duty
    position := (s.drives.position + counts) % 1000 }

/-- The four records of the pumps after one microsecond. -/
def tickPumps (v : Vector Pump 4) : Vector Pump 4 := #v[v[0].pass, v[1].pass, v[2].pass, v[3].pass]

/-- The four players after one microsecond. -/
def tickPlayers (v : Vector Player 4) : Vector Player 4 := #v[v[0].pass, v[1].pass, v[2].pass, v[3].pass]

/-- One microsecond of the part's own time base (log 2). In a reset and in STRAP FAULT nothing runs (R159, R162). -/
def advance (s : State) : State :=
  let next : State := { s with free := s.free + 1 }
  match s.cond with
  | .reset _ | .strapFault => next
  | .strapReading => { next with strapTime := s.strapTime - 1 }
  | .running =>
    { next with
      timer := s.timer.pass, arb := s.arb.pass s.line.active, line := s.line.pass, pumps := tickPumps s.pumps
      players := tickPlayers s.players, drives := runDrives (Config.outputCounts s.free) s
      gauge := { s.gauge with polder := s.gauge.polder.pass, outfall := s.gauge.outfall.pass } }

/-- Which of the events due is raised: the spec lets events of one instant come in either order, and a free value gives it
(log 3). -/
def pickDue (free : Nat) (d : List Instr) : Option Instr := d[Config.tieBreak free % d.length]?

/-- The step on an empty queue: an event that is due goes into the queue; where none is, one microsecond passes. -/
def idle (s : State) : State :=
  match pickDue s.free (due s) with
  | some c => { s with pending := [c], free := s.free + 1 }
  | none => advance s

end Sys2Proof.Machine
end

