-- ==== Sys2Proof/Machine/Schedule.lean ====
section
/-! DEFINITION. The round end and the own slot (chapter 2). -/

namespace Sys2Proof.Machine

open Sys2Proof

/-- The input pins as a command gives them. -/
def withInputs (inp : Inputs) (s : State) : State := { s with inputs := inp }

/-- The round end: every block's round-end work, and the phase returns to 0 (R24). -/
def takeRoundEnd (s : State) : State :=
  let s := roundEndWork s
  { s with timer := { s.timer with phase := 0 } }

/-- ROUND_END (R24). -/
def execRoundEnd (inp : Inputs) (s : State) : Host.Outcome State Fault Refusal :=
  .next (whenRunning takeRoundEnd (withInputs inp s))

/-- The own announcement is composed from the own entry and handed to the line interface, at most once in a round, by a station
that announces (R24, R40). Where a backward move brings the phase back before the 1.0 ms of the slot, the second start of the slot
composes nothing, and the frame composed first is begun, with its values and its round count, when the phase comes to 1.0 ms again.
DESIGN CHOICE, unsafe (log 44). -/
def composeAnnouncement (s : State) : State :=
  if s.announces && !s.timer.announceTaken then
    { s with timer := { s.timer with announceTaken := true },
             line := { s.line with handed := some (announcementChars s.own s.timer.count s.ownFields) } }
  else s

/-- OWN_SLOT_START (R40). -/
def execOwnSlotStart (inp : Inputs) (s : State) : Host.Outcome State Fault Refusal :=
  .next (whenRunning composeAnnouncement (withInputs inp s))

end Sys2Proof.Machine
end

