-- ==== Sys2Proof/Machine/GaugeEvents.lean ====
section
/-! DEFINITION. The end of a counting window, the judgement of pairs and the group readings (chapter 7). -/

namespace Sys2Proof.Machine

open Sys2Proof

/-! ### Windows and pairs (R123 to R125) -/

/-- The level code of a window from its two counts (R123). -/
def levelCode (probe reference : Nat) : Nat :=
  if probe < reference then 0 else if 4095 < probe - reference then 255 else (probe - reference) / 16

/-- The code of a window, none where it is void: a count would pass 65535 (R123). -/
def windowCode (probe reference : Nat) : Option Nat :=
  if 65535 < probe ∨ 65535 < reference then none else some (levelCode probe reference)

/-- A probe record after a window counted at `hop` (R123, R124). -/
def Probe.afterWindow (hop : BitVec 3) (probe reference : Nat) (r : Probe) : Probe :=
  match windowCode probe reference with
  | none => { r with hop := hop, overflow := true }
  | some _ => { r with hop := hop, counts := some (probe, reference) }

/-- How a window leaves the pairs of the probe (R125): the first window of a pair gave a code, the pair is accepted with its
second code, or it is dropped. -/
inductive PairOutcome where
  | half (code : Nat)
  | accepted (code : Nat)
  | dropped
  deriving DecidableEq, Repr

/-- The judgement of a window as the first or the second of its pair (R125). -/
def judgePair (first code : Option Nat) : PairOutcome :=
  match first, code with
  | none, some c => .half c
  | none, none => .dropped
  | some f, some c => if c ≤ f + 4 ∧ f ≤ c + 4 then .accepted c else .dropped
  | some _, none => .dropped

/-! ### Scans (R127) -/

/-- The record of a group. -/
def Gauge.group (g : Gauge) : ProbeGroup → GaugeGroup
  | .polder => g.polder
  | .outfall => g.outfall

/-- The record of a group is replaced. -/
def setGroup (g : ProbeGroup) (r : GaugeGroup) (s : State) : State :=
  match g with
  | .polder => { s with gauge := { s.gauge with polder := r } }
  | .outfall => { s with gauge := { s.gauge with outfall := r } }

/-- The record of a probe is replaced. -/
def setProbe (p : Fin 6) (r : Probe) (s : State) : State :=
  { s with gauge := { s.gauge with probes := s.gauge.probes.set p r } }

/-- The probe after `p` in the order of its scan, none after the last (R127). -/
def State.nextProbe (s : State) (p : Fin 6) : Option (Fin 6) :=
  match p.val with
  | 0 => some 1
  | 1 => some 2
  | 2 => if s.sumpBScanned then some 3 else none
  | 4 => some 5
  | _ => none

/-! ### Group readings (R128 to R134) -/

/-- The level probes of a group (R121). -/
def levelProbes : ProbeGroup → Fin 6 × Fin 6
  | .polder => (0, 1)
  | .outfall => (4, 5)

/-- The reading forms a level: a level probe has accepted a pair in this scan, which leaves it not UNSTEADY (R125, R127). -/
def State.formsLevel (s : State) (g : ProbeGroup) : Bool :=
  !(s.gauge.probes[(levelProbes g).1]).unsteady || !(s.gauge.probes[(levelProbes g).2]).unsteady

/-- The threshold Ti for the level p of the PROBE strap (R129). -/
def classThreshold (p i : Nat) : Nat := 16 + (16 + 2 * p) * i

/-- The number of the thresholds T1 to T7, each lowered by `band`, that a level reaches (R129). -/
def rawClass (p band level : Nat) : Fin 8 :=
  Fin.ofNat 8 (([1, 2, 3, 4, 5, 6, 7] : List Nat).filter (fun i => decide (classThreshold p i ≤ level + band))).length

/-- The held class after a reading that forms a level (R130). -/
def heldAfter (held lastRising lastFalling : Option (Fin 8)) (rising falling : Fin 8) : Fin 8 :=
  match held with
  | none => rising
  | some h =>
    match lastRising, lastFalling with
    | some lr, some lf =>
      if h < rising ∧ h < lr then min rising lr
      else if falling < h ∧ lf < h then max falling lf
      else h
    | _, _ => h

/-- The group level of two codes and the mark DISAGREE (R128). -/
def groupLevel : Option Nat → Option Nat → Option Nat × Bool
  | some x, some y => (some (max x y), decide (x + 16 < y ∨ y + 16 < x))
  | some x, none => (some x, false)
  | none, some y => (some y, false)
  | none, none => (none, false)

/-- The group record after a reading that forms level `l` (R128 to R130); `p` is the level of the PROBE strap. -/
def GaugeGroup.read (p l : Nat) (disagree : Bool) (r : GaugeGroup) : GaugeGroup :=
  let rising := rawClass p 0 l
  let falling := rawClass p 8 l
  { r with level := some l, disagree := disagree, heldClass := some (heldAfter r.heldClass r.lastRising r.lastFalling rising falling),
           lastRising := some rising, lastFalling := some falling }

/-- The flood alarm at a polder reading that forms a level, after the held class (R131). -/
def readFlood (s : State) : State :=
  match s.gauge.polder.heldClass with
  | none => s
  | some c =>
    let count := if c = 7 then min 4 (s.gauge.floodCount + 1) else 0
    let s : State := { s with gauge := { s.gauge with floodCount := count } }
    if s.gauge.flood = false ∧ count = 4 then State.raise .flood { s with gauge := { s.gauge with flood := true } }
    else if s.gauge.flood = true ∧ c ≤ 5 then State.raise .flood { s with gauge := { s.gauge with flood := false } }
    else s

/-- A sump after an accepted code (R132). -/
def Sump.read (code : Nat) (u : Sump) : Sump :=
  if u.low then
    if 40 ≤ code then (if 2 ≤ u.run + 1 then ⟨false, 0⟩ else ⟨true, u.run + 1⟩) else ⟨true, 0⟩
  else
    if code < 24 then (if 2 ≤ u.run + 1 then ⟨true, 0⟩ else ⟨false, u.run + 1⟩) else ⟨false, 0⟩

/-- A sump at a polder reading: its probe's accepted code, or as it stood where the probe is UNSTEADY (R132). -/
def Sump.judge (r : Probe) (u : Sump) : Sump :=
  match r.unsteady, r.lastCode with
  | false, some code => u.read code
  | _, _ => u

/-- The judgement of the sumps whose probes are scanned (R132). -/
def readSumps (s : State) : State :=
  { s with gauge := { s.gauge with sumpA := s.gauge.sumpA.judge s.gauge.probes[2],
                                   sumpB := if s.sumpBScanned then s.gauge.sumpB.judge s.gauge.probes[3]
                                            else s.gauge.sumpB } }

/-- A sump that has become LOW stops its active pumps urgently (R103, R133). -/
def stopLowPumps (before s : State) : State :=
  pumpList.foldl (fun s k => if s.sumpLow k && !before.sumpLow k then urgentStop k s else s) s

/-- The level, the classes and, for the polder group, the flood alarm of a group reading (R127 to R131, R134). -/
def readLevel (g : ProbeGroup) (s : State) : State :=
  if s.formsLevel g then
    match groupLevel (s.gauge.probes[(levelProbes g).1]).lastCode (s.gauge.probes[(levelProbes g).2]).lastCode with
    | (some l, disagree) =>
      let s := setGroup g ((s.gauge.group g).read s.straps.probe.val l disagree) s
      match g with
      | .polder => readFlood s
      | .outfall => s
    | (none, _) => s
  else s

/-- A group reading (R127): one act, handed on when it is complete. -/
def groupReading (g : ProbeGroup) (s : State) : State :=
  let read := readLevel g s
  match g with
  | .outfall => read
  | .polder => stopLowPumps s (readSumps read)

/-! ### The end of a counting window -/

/-- The scan ends: the group reading, and in CONTINUOUS mode, once the reading is complete, the next scan (R127, R135). -/
def endScan (g : ProbeGroup) (s : State) : State :=
  let s := syncSampling (groupReading g (setGroup g { s.gauge.group g with scan := none } s))
  match s.gauge.sampling with
  | .continuous => beginScans s
  | .periodic => s

/-- The probe under way is done for this scan: the next probe begins, or the scan ends (R125, R127). -/
def doneProbe (g : ProbeGroup) (p : Fin 6) (s : State) : State :=
  match s.nextProbe p with
  | some q => setGroup g { s.gauge.group g with scan := some (Scan.begin q) } s
  | none => endScan g s

/-- A pair of the probe under way is dropped (R125): another is tried, or after the third the probe is UNSTEADY. -/
def dropPair (g : ProbeGroup) (c : Scan) (s : State) : State :=
  if 3 ≤ c.tried + 1 then
    doneProbe g c.probe (setProbe c.probe { s.gauge.probes[c.probe] with unsteady := true } s)
  else
    let again : Scan := { c with first := none, tried := c.tried + 1, windowTime := 0 }
    setGroup g { s.gauge.group g with scan := some again } s

/-- A window of group `g` ends (R123 to R125): the counts and the hop are recorded, the hop setting advances, and the window
is judged in its pair. A group that is not scanning counts no window. That the record takes the hop at the window's end is the
model's. DESIGN CHOICE, unsafe (log 36). -/
def endCountingWindow (g : ProbeGroup) (probe reference : Nat) (s : State) : State :=
  match (s.gauge.group g).scan with
  | none => s
  | some c =>
    let hop := (s.gauge.group g).hop
    let s := setProbe c.probe ((s.gauge.probes[c.probe]).afterWindow hop probe reference) s
    let s := setGroup g { s.gauge.group g with hop := hop + 1 } s
    match judgePair c.first (windowCode probe reference) with
    | .half code =>
      let half : Scan := { c with first := some code, windowTime := 0 }
      setGroup g { s.gauge.group g with scan := some half } s
    | .accepted code =>
      doneProbe g c.probe
        (setProbe c.probe { s.gauge.probes[c.probe] with lastCode := some code, unsteady := false, overflow := false } s)
    | .dropped => dropPair g c s

/-- COUNTING_WINDOW_END (R123). -/
def execCountingWindowEnd (g : ProbeGroup) (probeCycles referenceCycles : Nat) (s : State) :
    Host.Outcome State Fault Refusal :=
  .next (whenRunning (endCountingWindow g probeCycles referenceCycles) s)

end Sys2Proof.Machine
end

