-- ==== Sys2Proof/Machine/PumpEvents.lean ====
section
/-! DEFINITION. The events of the pump controllers and of the players (chapters 5 and 6). -/

namespace Sys2Proof.Machine

open Sys2Proof

/-- PRIME_SENSE of pump `k` stands asserted. -/
def senseAsserted (k : PumpIx) (s : State) : State :=
  { s with inputs := { s.inputs with primeSense := s.inputs.primeSense ||| BitVec.ofNat 4 (2 ^ k.val) } }

/-- PRIME_SENSE is read in PRIMING alone, and sends the pump to RAMP_UP (R86). -/
def primeSensed (k : PumpIx) (s : State) : State :=
  if (s.pump k).state = .priming then enterRampUp k s else s

/-- PRIME_SENSE_ASSERTED (R86). -/
def execPrimeSenseAsserted (k : PumpIx) (s : State) : Host.Outcome State Fault Refusal :=
  .next (whenRunning (primeSensed k) (senseAsserted k s))

/-- The prime timer expires (R87): in PRIMING the pump faults with PRIME_TIMEOUT. A stopped timer has no expiry (R80). -/
def primeTimerExpires (k : PumpIx) (s : State) : State :=
  let p := s.pump k
  if p.primeTimer.isSome then
    if p.state = .priming then faultPump k .primeTimeout s else s.setPump k { p with primeTimer := none }
  else s

/-- PRIME_TIMER_EXPIRY (R87). -/
def execPrimeTimerExpiry (k : PumpIx) (s : State) : Host.Outcome State Fault Refusal :=
  .next (whenRunning (primeTimerExpires k) s)

/-- The level of RUN_FB of pump `k`. -/
def withRunFb (k : PumpIx) (level : Bool) (s : State) : State :=
  let bit : BitVec 4 := BitVec.ofNat 4 (2 ^ k.val)
  { s with inputs := { s.inputs with runFb := if level then s.inputs.runFb ||| bit else s.inputs.runFb &&& ~~~bit } }

/-- The feedback-due timer expires (R90): RUN_FB asserted begins the supervision, and otherwise the pump faults with
NO_FEEDBACK. -/
def feedbackDueExpires (k : PumpIx) (level : Bool) (s : State) : State :=
  let p := s.pump k
  if p.feedbackTimer.isSome then
    if p.state.runs then
      if level then s.setPump k { p with feedbackTimer := none, supervised := true }
      else faultPump k .noFeedback s
    else s.setPump k { p with feedbackTimer := none }
  else s

/-- FEEDBACK_DUE_EXPIRY (R90). -/
def execFeedbackDueExpiry (k : PumpIx) (runFb : Bool) (s : State) : Host.Outcome State Fault Refusal :=
  .next (whenRunning (feedbackDueExpires k runFb) (withRunFb k runFb s))

/-- The minimum-run timer expires (R91). -/
def minimumRunExpires (k : PumpIx) (s : State) : State :=
  let p := s.pump k
  if p.minRunTimer.isSome then s.setPump k { p with minRunTimer := none, pastMinRun := p.pastMinRun || p.state.runs }
  else s

/-- MINIMUM_RUN_EXPIRY (R91). -/
def execMinimumRunExpiry (k : PumpIx) (s : State) : Host.Outcome State Fault Refusal :=
  .next (whenRunning (minimumRunExpires k) s)

/-- The rest timer expires (R92): the pump enters IDLE, or HELD with hold pending. -/
def restTimerExpires (k : PumpIx) (s : State) : State :=
  let p := s.pump k
  if p.restTimer.isSome then
    if p.state = .resting then
      if p.holdPending then s.setPump k { p with state := .held, holdPending := false, restTimer := none }
      else s.setPump k { p with state := .idle, restTimer := none }
    else s.setPump k { p with restTimer := none }
  else s

/-- REST_TIMER_EXPIRY (R92). -/
def execRestTimerExpiry (k : PumpIx) (s : State) : Host.Outcome State Fault Refusal :=
  .next (whenRunning (restTimerExpires k) s)

/-- A whole second in RAMP_UP or RUNNING (R99). -/
def secondPasses (k : PumpIx) (s : State) : State :=
  let p := s.pump k
  if p.state.runs then s.setPump k p.countSecond else s.setPump k { p with secondTimer := none }

/-- RUN_SECOND (R99). -/
def execRunSecond (k : PumpIx) (s : State) : Host.Outcome State Fault Refusal := .next (whenRunning (secondPasses k) s)

/-- The controller's act on the reported end of a play (R112): RAMP_UP goes to RUNNING, or to RAMP_DOWN when FINISHING; RUNNING
when FINISHING goes to RAMP_DOWN; RAMP_DOWN goes to RESTING. No play runs in any other state (log 28). -/
def playEnded (k : PumpIx) (s : State) : State :=
  match (s.pump k).state with
  | .rampUp => if (s.pump k).finishing then enterRampDown k s else enterRunning k s
  | .running => if (s.pump k).finishing then enterRampDown k s else s
  | .rampDown => enterResting k s
  | .absent | .held | .idle | .resting | .priming | .faulted => s

/-- The controller's act on a reported runaway (R95). -/
def playRanAway (k : PumpIx) (s : State) : State :=
  match (s.pump k).state with
  | .rampUp | .running | .rampDown => faultPump k .profileFault s
  | .absent | .held | .idle | .resting | .priming | .faulted => s

/-- The current step of the player of pump `k` completes (R111, R112, R115). -/
def stepCompletes (k : PumpIx) (s : State) : State :=
  let p := s.player k
  match p.playing, p.step with
  | true, some cur =>
    match p.complete s.profile cur with
    | .goesOn p' => s.setPlayer k p'
    | .ends p' => playEnded k (s.setPlayer k p')
    | .runaway p' => playRanAway k (s.setPlayer k p')
  | _, _ => s

/-- STEP_COMPLETION (R111). -/
def execStepCompletion (k : PumpIx) (s : State) : Host.Outcome State Fault Refusal :=
  .next (whenRunning (stepCompletes k) s)

end Sys2Proof.Machine
end

