-- ==== Sys2Proof/Machine/Receive.lean ====
section
/-! DEFINITION. Reception of characters and frames, and the events of the cable check (R141 to R147, R154, R155). -/

namespace Sys2Proof.Machine

open Sys2Proof

/-- Phase and round count `ago` before `phase` and `count`, within one round of them. -/
def scheduleBack (ago phase : Nat) (count : Word16) : Nat × Word16 :=
  if phase < ago then (phase + 500000 - ago, count - 1) else (phase - ago, count)

/-- The own phase and round count `ago` before now, on the schedule that stood then: the one that the first realignment since has
replaced, or the present one where there was none (R30, log 14). A realignment at that very instant counts as one since. DESIGN
CHOICE, unsafe (log 49). -/
def RoundTimer.before (t : RoundTimer) (ago : Nat) : Nat × Word16 :=
  match t.replaced.find? (fun r => decide (r.age ≤ ago)) with
  | some r => scheduleBack (ago - r.age) r.phase r.count
  | none => scheduleBack ago t.phase t.count

/-- A frame that begins with a lead completed now (R142): the lead's start edge lies 336 µs back. The own phase and round
count at that edge are kept for the out-of-step test (R30). -/
def Assembly.begin (s : State) (kind : FrameKind) (c : Byte) : Assembly :=
  { kind := kind, chars := [c], void := false, edgeAge := 336, edgePhase := (s.timer.before 336).1
    edgeCount := (s.timer.before 336).2, sinceChar := 0 }

/-- What a character does to the frame under way (R142): a lead begins one; a stop fault ends it; a parity fault voids it and
the collecting goes on; any other character with no frame under way is a stray. -/
def assemble (s : State) (v : Byte) (parityFault stopFault : Bool) (under : Option Assembly) : Option Assembly :=
  match under with
  | some x =>
    if stopFault then none
    else some { x with chars := x.chars ++ [v], void := x.void || parityFault, sinceChar := 0 }
  | none =>
    if parityFault || stopFault then none
    else (leadKind v).map (fun kind => Assembly.begin s kind v)

/-- A decoder that is neither held nor waiting completes a character (R141, R142, R145). One that comes too late for the frame under
way finds it truncated. -/
def receiveCharacter (c : Cable) (r : Readings) (s : State) : State :=
  let x := s.line.cable c
  if s.decodersHeld || decide (x.decoder = .waitRelease) then s
  else match judgeReadings r with
    | .falseStart => s
    | .char v parityFault stopFault =>
      let x := if x.overdue then x.truncated else x
      let counted := if parityFault || stopFault then x.countParity else x
      setCable c { counted with assembly := assemble s v parityFault stopFault x.underWay,
                                decoder := if stopFault then .waitRelease else .seeking } s

/-- CHARACTER_COMPLETE (R141). -/
def execCharacterComplete (c : Cable) (r : Readings) (s : State) : Host.Outcome State Fault Refusal :=
  .next (whenRunning (receiveCharacter c r) s)

/-- The input is released after a stop fault, or after a hold has ended: the decoder seeks start edges again (R141, R144). -/
def releaseDecoder (c : Cable) (s : State) : State :=
  if s.decodersHeld then s else setCable c { s.line.cable c with decoder := .seeking } s

/-- DECODER_INPUT_RELEASED (R141). -/
def execDecoderInputReleased (c : Cable) (s : State) : Host.Outcome State Fault Refusal :=
  .next (whenRunning (releaseDecoder c) s)

/-- A frame of cable `c` that is not valid: for the check, one that arrives on the standby cable closes comparisons (R154). -/
def failedArrival (c : Cable) (s : State) : State :=
  if s.line.active = c then s else checkStandbyFrame none s

/-- A valid frame (R143): offered where its cable is active at its arrival, then its cable's round is marked (R146, log 11),
and the check takes it (R154). A frame whose copy on the old active cable was offered just before a change of the active cable is
offered again when it arrives on the new one. DESIGN CHOICE, unsafe (log 40). -/
def validArrival (c : Cable) (x : Assembly) (s : State) : State :=
  let active := decide (s.line.active = c)
  let s := if active then offerFrame x s else s
  let s := setCable c { s.line.cable c with frameMark := true } s
  if active then checkActiveFrame x.chars s else checkStandbyFrame (some x.chars) s

/-- A complete frame is judged (R143): void, check failure, or valid. -/
def judgeFrame (c : Cable) (x : Assembly) (s : State) : State :=
  if x.void then failedArrival c s
  else if frameCheckOk x.kind x.chars then validArrival c x s
  else failedArrival c (setCable c (s.line.cable c).countCheck s)

/-- The arrival of the frame of cable `c`, where one is complete (R142, R143). -/
def arriveFrame (c : Cable) (s : State) : State :=
  match (s.line.cable c).assembly with
  | none => s
  | some x =>
    if x.complete then judgeFrame c x (setCable c { s.line.cable c with assembly := none } s) else s

/-- FRAME_ARRIVAL (R143). -/
def execFrameArrival (c : Cable) (inp : Inputs) (s : State) : Host.Outcome State Fault Refusal :=
  .next (whenRunning (arriveFrame c) (withInputs inp s))

/-- No start edge in time (R142): the frame under way is truncated. -/
def truncateFrame (c : Cable) (s : State) : State := setCable c (s.line.cable c).truncated s

/-- FRAME_TRUNCATED (R142). -/
def execFrameTruncated (c : Cable) (s : State) : Host.Outcome State Fault Refusal :=
  .next (whenRunning (truncateFrame c) s)

/-- The oldest open comparison closes unmatched (R154). -/
def timeOutComparison (s : State) : State :=
  match s.line.check.opened with
  | [] => s
  | _ :: rest =>
    { s with line := { s.line with check := { s.line.check with opened := rest, roundErrored := true } } }

/-- CHECK_COMPARISON_TIMEOUT (R154). -/
def execCheckComparisonTimeout (s : State) : Host.Outcome State Fault Refusal :=
  .next (whenRunning timeOutComparison s)

/-- CHECK returns high (R155). -/
def endPulse (s : State) : State :=
  { s with line := { s.line with check := { s.line.check with pulse := none } } }

/-- CHECK_PULSE_END (R155). -/
def execCheckPulseEnd (s : State) : Host.Outcome State Fault Refusal := .next (whenRunning endPulse s)

end Sys2Proof.Machine
end

