-- ==== Sys2Proof/Machine/Reset.lean ====
section
/-! DEFINITION. The two resets, the end of a reset and the strap reading (chapter 9). -/

namespace Sys2Proof.Machine

open Sys2Proof

/-- The pumps after a reset that keeps the run minutes (R81, R161); the accumulators go to 0. -/
def keptPumps (v : Vector Pump 4) : Vector Pump 4 :=
  #v[Pump.reset v[0].runMinutes, Pump.reset v[1].runMinutes, Pump.reset v[2].runMinutes, Pump.reset v[3].runMinutes]

/-- Every piece of state at its value after a cold reset (R160), the reset lasting; the pins and the queue are not the
part's. -/
def takeColdReset (s : State) : State :=
  { State.reset with cond := .reset .cold, strapTime := 0, strapPins := s.strapPins, inputs := s.inputs, free := s.free,
                     pending := s.pending }

/-- Every piece of state at its value after a warm reset, the reset lasting: the profile memory, the pointer table and the run
minutes are kept (R161). -/
def takeWarmReset (s : State) : State :=
  { takeColdReset s with cond := .reset .warm, pumps := keptPumps s.pumps, profile := s.profile, pointers := s.pointers }

/-- COLD_RESET (R160): taken at any time, also during a warm reset (R161). -/
def execColdReset (s : State) : Host.Outcome State Fault Refusal := .next (takeColdReset s)

/-- WARM_RESET (R161): a low pulse shorter than 100 µs is not taken; during a cold reset the cold reset goes on. -/
def execWarmReset (low : Nat) (s : State) : Host.Outcome State Fault Refusal :=
  .next
    (if low < 100 then s
     else match s.cond with
       | .reset .cold => s
       | .reset .warm | .strapReading | .running | .strapFault => takeWarmReset s)

/-- RESET_END (R158): the reset ends and the 8.0 ms of the strap reading begin. -/
def execResetEnd (s : State) : Host.Outcome State Fault Refusal :=
  .next
    (match s.cond with
     | .reset _ => { s with cond := .strapReading, strapTime := 8000 }
     | .strapReading | .running | .strapFault => s)

/-- The state of pump `k` when the straps have been read: IDLE where it is fitted, ABSENT where it is not (R81). -/
def fittedState (l : StrapLevels) (k : PumpIx) : PumpState := if k.val < l.fitted then .idle else .absent

/-- A pump record as the straps say whether the pump is fitted. -/
def fitPump (l : StrapLevels) (k : PumpIx) (p : Pump) : Pump := { p with state := fittedState l k }

/-- The four pump records as the straps say how many pumps are fitted (R81). -/
def fitPumps (l : StrapLevels) (v : Vector Pump 4) : Vector Pump 4 :=
  #v[fitPump l 0 v[0], fitPump l 1 v[1], fitPump l 2 v[2], fitPump l 3 v[3]]

/-- Every block begins from its values after reset (R163): the fitted pumps are IDLE, and each group that is scanned begins its
first scan (R122). -/
def beginBlocks (s : State) : State :=
  beginScans { s with pumps := fitPumps s.straps s.pumps, cond := .running, strapTime := 0 }

/-- STRAP_READING_COMPLETE (R158, R159, R163): the levels are kept; the part enters STRAP FAULT, or every block begins. -/
def execStrapReadingComplete (levels : StrapLevels) (s : State) : Host.Outcome State Fault Refusal :=
  .next
    (match s.cond with
     | .strapReading =>
       let s := { s with straps := levels, strapPins := levels }
       if levels.inFault then { s with cond := .strapFault, strapTime := 0 } else beginBlocks s
     | .reset _ | .running | .strapFault => s)

end Sys2Proof.Machine
end

