-- ==== Sys2Proof/Machine/Records.lean ====
section
/-! DEFINITION. The records of the service port (R180) and the answers of a transaction (R165 to R168). -/

namespace Sys2Proof.Machine

open Sys2Proof

/-! ### Coding -/

/-- A number as a character. -/
def byteOf (n : Nat) : Byte := BitVec.ofNat 8 n

/-- A yes or no as one bit at place `i`. -/
def bitAt (i : Nat) (b : Bool) : Nat := if b then 2 ^ i else 0

/-- A 16-bit figure in two characters, high first. -/
def twoChars (n : Nat) : List Byte := word16Chars (BitVec.ofNat 16 n)

/-- A 24-bit figure in three characters, high first. -/
def threeChars (n : Nat) : List Byte :=
  let w := BitVec.ofNat 24 n
  [w.extractLsb' 16 8, w.extractLsb' 8 8, w.extractLsb' 0 8]

def EntryStatus.code : EntryStatus → Nat
  | .empty => 0
  | .fresh => 1
  | .stale => 2
  | .lost => 3

def PumpState.code : PumpState → Nat
  | .absent => 0
  | .held => 1
  | .idle => 2
  | .resting => 3
  | .priming => 4
  | .rampUp => 5
  | .running => 6
  | .rampDown => 7
  | .faulted => 8

/-- The fault cause, 0 for absent. -/
def causeCode : Option FaultCause → Nat
  | none => 0
  | some .primeTimeout => 1
  | some .noFeedback => 2
  | some .runLost => 3
  | some .profileFault => 4

def LastResult.code : LastResult → Nat
  | .none => 0
  | .win => 1
  | .loss => 2

def cableCode : Cable → Nat
  | .a => 0
  | .b => 1

def CheckResult.code : CheckResult → Nat
  | .none => 0
  | .pass => 1
  | .fail => 2
  | .aborted => 3

/-- A time left in whole seconds rounded up, or the marker of a stopped timer (R104, R180). -/
def secondsLeft (stopped : Nat) : Option Nat → Nat
  | none => stopped
  | some t => (t + 999999) / 1000000

/-! ### Records -/

/-- The window record in the station record: characters 31 to 35. -/
def windowRecordChars : Option WindowRecord → List Byte
  | none => [0xFF, 0, 0, 0, 0]
  | some r => [byteOf r.station.val, byteOf r.pump.val, r.rating] ++ word16Chars r.round

/-- The station record in its running form, 37 characters (R170, R180). -/
def stationRecord (s : State) : List Byte :=
  [0x00] ++ s.straps.chars ++ [byteOf s.own.val]
    ++ [byteOf (s.timer.mode.code + bitAt 7 (decide (s.timer.mode = .joining) && s.timer.aligned))]
    ++ word16Chars s.timer.count
    ++ [match s.timer.reference with | some r => byteOf r.val | none => 0xFF]
    ++ word16Chars s.timer.realignCount
    ++ [byteOf (cableCode s.line.active)]
    ++ [byteOf s.alloc.qd, byteOf s.alloc.entitlement, byteOf s.alloc.demand, byteOf s.alloc.target, byteOf s.committed]
    ++ [match s.alloc.startWanted with | some k => byteOf k.val | none => 0xFF]
    ++ [s.table.accepted.zeroExtend 8]
    ++ [byteOf (classCode s.gauge.polder.heldClass), byteOf (classCode s.gauge.outfall.heldClass)]
    ++ [byteOf (bitAt 0 s.gauge.flood + bitAt 1 s.gauge.sumpA.low + bitAt 2 s.gauge.sumpB.low)]
    ++ [byteOf s.arb.freeWindows, byteOf s.arb.threshold, byteOf s.arb.lastResult.code]
    ++ windowRecordChars s.arb.record
    ++ [s.port.flags.zeroExtend 8, s.port.mask.zeroExtend 8]

/-- The station record in its fault form, 12 characters (R171, R180). -/
def faultRecord (s : State) : List Byte :=
  [0x01] ++ s.straps.chars ++ [byteOf (bitAt 0 s.straps.stnHiFault + bitAt 1 s.straps.roleFault)]
    ++ [s.port.flags.zeroExtend 8, s.port.mask.zeroExtend 8]

/-- A round count, 0 where it is absent. -/
def countChars (w : Option Word16) : List Byte := word16Chars (w.getD 0)

/-- The entry record, 15 characters (R22, R180). The mode of the own entry carries no aligned mark (log 18). -/
def entryRecord (e : Entry) : List Byte :=
  [byteOf e.status.code, byteOf e.age,
    byteOf (bitAt 0 e.fields.isSome + bitAt 1 e.startSeen.isSome + bitAt 2 e.lastCount.isSome)]
    ++ (match e.fields with
        | none => [0, 0, 0, 0, 0, 0, 0, 0]
        | some f => [byteOf f.mode.code, classChar f.polderClass f.flood, byteOf f.demand, byteOf f.committed,
                     byteOf f.island, offerChar f.offer, f.flags.zeroExtend 8, f.summary])
    ++ countChars e.startSeen ++ countChars e.lastCount

/-- The pump record, 13 characters (R104, R180). -/
def pumpRecord (p : Pump) (q : Player) : List Byte :=
  [byteOf p.state.code, byteOf (causeCode p.cause), byteOf (secondsLeft 0xFF p.primeTimer),
    byteOf (secondsLeft 0xFF p.feedbackTimer)]
    ++ twoChars (secondsLeft 0xFFFF p.minRunTimer)
    ++ [byteOf (secondsLeft 0xFF p.restTimer),
        byteOf (bitAt 0 p.pastMinRun + bitAt 1 p.supervised + 4 * p.missCount + (if p.finishing then 32 else 0)
          + bitAt 6 p.holdPending)]
    ++ threeChars p.runMinutes
    ++ [match q.step with | some i => byteOf i.val | none => 0xFF]
    ++ [byteOf q.speed]

/-- The group of a probe. -/
def State.groupOfProbe (s : State) (p : Fin 6) : GaugeGroup := if p.val < 4 then s.gauge.polder else s.gauge.outfall

/-- The probe record, 7 characters (R138, R180). -/
def probeRecord (s : State) (p : Fin 6) : List Byte :=
  let r := s.gauge.probes[p]
  [byteOf (bitAt 0 r.lastCode.isSome + bitAt 1 r.counts.isSome + bitAt 2 r.overflow + bitAt 3 r.unsteady
      + bitAt 4 (s.groupOfProbe p).disagree),
    byteOf (r.lastCode.getD 0)]
    ++ twoChars (r.counts.elim 0 Prod.fst) ++ twoChars (r.counts.elim 0 Prod.snd) ++ [r.hop.zeroExtend 8]

/-- The cable record, 10 characters (R156, R180). -/
def cableRecord (s : State) : List Byte :=
  let l := s.line
  [byteOf (cableCode l.active), byteOf (bitAt 0 l.a.locked + bitAt 1 l.b.locked), byteOf l.a.parityCount,
    byteOf l.a.checkCount, byteOf l.b.parityCount, byteOf l.b.checkCount, byteOf (bitAt 0 l.check.running),
    byteOf l.check.roundsLeft, byteOf l.check.errored, byteOf l.check.result.code]

/-- One place of the flag change queue, three characters of 0 where it is empty. -/
def flagPlace : Option FlagRecord → List Byte
  | none => [0, 0, 0]
  | some r => [r.flags.zeroExtend 8] ++ word16Chars r.round

/-- The flag change record, 7 characters (R21, R180). -/
def flagChangeRecord (t : Table) : List Byte :=
  [byteOf (t.queue.length + bitAt 7 t.overrun)] ++ flagPlace t.queue[0]? ++ flagPlace t.queue[1]?

/-! ### Answers (R168, R179) -/

/-- The answer of a taken command: a status, with a record after OK. -/
inductive Answer where
  | ok (record : List Byte)
  | busy
  | range
  | unknown
  | fault
  deriving DecidableEq, Repr

/-- The characters of an answer. -/
def Answer.chars : Answer → List Byte
  | .ok record => 0xA0 :: record
  | .busy => [0xA1]
  | .range => [0xA2]
  | .unknown => [0xA3]
  | .fault => [0xA4]

/-- The answer stands ready to be clocked out (R165, R166). -/
def giveAnswer (a : Answer) (s : State) : State := { s with port := { s.port with answer := some a.chars } }

/-- A command can be taken: a transaction is open and none has been taken in it (R165, log 19). -/
def Port.ready (p : Port) : Bool := p.selected && p.answer.isNone

/-- A command is taken (R166, R168): BUSY while the straps are read, FAULT in STRAP FAULT, and otherwise judged by its own rule.
While a reset lasts, or outside a transaction, no command is taken. -/
def takeCommand (work : State → State × Answer) (s : State) : State :=
  if s.port.ready then
    match s.cond with
    | .reset _ => s
    | .strapReading => giveAnswer .busy s
    | .strapFault => giveAnswer .fault s
    | .running => giveAnswer (work s).2 (work s).1
  else s

/-- A read of the part: it changes nothing but the answer. -/
def readWith (answer : State → Answer) (s : State) : State × Answer := (s, answer s)

end Sys2Proof.Machine
end

