-- ==== Sys2Proof/Machine/ServicePort.lean ====
section
/-! DEFINITION. The commands of the service port (chapter 10) and the begin and end of a transaction. -/

namespace Sys2Proof.Machine

open Sys2Proof

/-! ### Transactions (R165, R167) -/

/-- TRANSACTION_BEGIN (R165): a new transaction, whatever the last left unfinished; none while a reset lasts (R162). -/
def execTransactionBegin (s : State) : Host.Outcome State Fault Refusal :=
  .next
    (match s.cond with
     | .reset _ => s
     | .strapReading | .running | .strapFault => { s with port := { s.port with selected := true, answer := none } })

/-- TRANSACTION_END (R167): what has not been clocked out is discarded. -/
def execTransactionEnd (s : State) : Host.Outcome State Fault Refusal :=
  .next { s with port := { s.port with selected := false, answer := none } }

/-! ### Reads -/

/-- The taking of READ STATION: its fault form in STRAP FAULT (R168, R171), its running form otherwise (R170). -/
def takeReadStation (s : State) : State :=
  if s.port.ready && decide (s.cond = .strapFault) then giveAnswer (.ok (faultRecord s)) s
  else takeCommand (readWith (fun s => .ok (stationRecord s))) s

/-- READ_STATION (R170, R171). -/
def execReadStation (s : State) : Host.Outcome State Fault Refusal := .next (takeReadStation s)

/-- The answer of READ ENTRY (R22). -/
def answerEntry (k : Byte) (s : State) : Answer :=
  match stationParameter k with
  | some j => .ok (entryRecord (s.entry j))
  | none => .range

/-- READ_ENTRY (R22); the own entry shows the flag inputs as they stand at the taking (R3). -/
def execReadEntry (k : Byte) (inp : Inputs) (s : State) : Host.Outcome State Fault Refusal :=
  .next (takeCommand (readWith (answerEntry k)) { s with inputs := inp })

/-- The answer of READ PUMP (R104). -/
def answerPump (k : Byte) (s : State) : Answer :=
  match pumpParameter k with
  | some j => .ok (pumpRecord (s.pump j) (s.player j))
  | none => .range

/-- READ_PUMP (R104). -/
def execReadPump (k : Byte) (s : State) : Host.Outcome State Fault Refusal :=
  .next (takeCommand (readWith (answerPump k)) s)

/-- The answer of READ PROBE (R138). -/
def answerProbe (g p : Byte) (s : State) : Answer :=
  match probeParameter g p with
  | some j => .ok (probeRecord s j)
  | none => .range

/-- READ_PROBE (R138). -/
def execReadProbe (g p : Byte) (s : State) : Host.Outcome State Fault Refusal :=
  .next (takeCommand (readWith (answerProbe g p)) s)

/-- READ_CABLES (R156). -/
def execReadCables (s : State) : Host.Outcome State Fault Refusal :=
  .next (takeCommand (readWith (fun s => .ok (cableRecord s))) s)

/-- READ FLAG CHANGES answers the queue and the overrun mark, then empties the queue and clears the mark (R21). -/
def workReadFlagChanges (s : State) : State × Answer :=
  ({ s with table := { s.table with queue := [], overrun := false } }, .ok (flagChangeRecord s.table))

/-- READ_FLAG_CHANGES (R21). -/
def execReadFlagChanges (s : State) : Host.Outcome State Fault Refusal := .next (takeCommand workReadFlagChanges s)

/-! ### Profiles (R117, R118) -/

/-- WRITE STEP: RANGE, then BUSY while any player is PLAYING, then the step takes the three values (R117). -/
def workWriteStep (ix sp h m : Byte) (s : State) : State × Answer :=
  match stepParameter ix, endMarkParameter m with
  | some j, some e =>
    if 100 < sp.toNat ∨ h = 0 then (s, .range)
    else if s.anyPlaying then (s, .busy)
    else ({ s with profile := s.profile.set j { speed := sp.toNat, hold := h.toNat, endMark := e } }, .ok [])
  | _, _ => (s, .range)

/-- WRITE_STEP (R117). -/
def execWriteStep (ix sp h m : Byte) (s : State) : Host.Outcome State Fault Refusal :=
  .next (takeCommand (workWriteStep ix sp h m) s)

/-- WRITE POINTERS: RANGE, then BUSY while the pump's player is PLAYING, then the entry takes the four values (R118). -/
def workWritePointers (k u r d q : Byte) (s : State) : State × Answer :=
  match pumpParameter k, stepParameter u, runStartParameter r, stepParameter d with
  | some j, some up, some run, some down =>
    if q.toNat = 0 ∨ 8 < q.toNat then (s, .range)
    else if (s.player j).playing then (s, .busy)
    else ({ s with pointers := s.pointers.set j { up := up, run := run, down := down, rate := q.toNat } }, .ok [])
  | _, _, _, _ => (s, .range)

/-- WRITE_POINTERS (R118). -/
def execWritePointers (k u r d q : Byte) (s : State) : Host.Outcome State Fault Refusal :=
  .next (takeCommand (workWritePointers k u r d q) s)

/-! ### Pumps (R96 to R98, R100) -/

/-- A hold of pump `k` by its state (R97). A hold pending that a RESTING pump already has stands on its entry to HELD. DESIGN
CHOICE, unsafe (log 35). -/
def holdPump (k : PumpIx) (s : State) : State :=
  let p := s.pump k
  match p.state with
  | .idle => s.setPump k { p with state := .held }
  | .resting => s.setPump k { p with state := .held, restTimer := none }
  | .priming | .rampUp | .running => demandStop true k (s.setPump k { p with holdPending := true })
  | .rampDown | .faulted => s.setPump k { p with holdPending := true }
  | .held | .absent => s

/-- HOLD PUMP: RANGE for an ABSENT pump or an index above 3 (R97); what follows a pump's change follows at once. -/
def workHoldPump (k : Byte) (s : State) : State × Answer :=
  match pumpParameter k with
  | some j => if (s.pump j).state = .absent then (s, .range) else (follow (holdPump j s), .ok [])
  | none => (s, .range)

/-- HOLD_PUMP (R97). -/
def execHoldPump (k : Byte) (s : State) : Host.Outcome State Fault Refusal := .next (takeCommand (workHoldPump k) s)

/-- A release of pump `k` (R98). -/
def releasePump (k : PumpIx) (s : State) : State :=
  if (s.pump k).state = .held then enterResting k s else s.setPump k { s.pump k with holdPending := false }

/-- RELEASE PUMP (R98). -/
def workReleasePump (k : Byte) (s : State) : State × Answer :=
  match pumpParameter k with
  | some j => if (s.pump j).state = .absent then (s, .range) else (releasePump j s, .ok [])
  | none => (s, .range)

/-- RELEASE_PUMP (R98). -/
def execReleasePump (k : Byte) (s : State) : Host.Outcome State Fault Refusal :=
  .next (takeCommand (workReleasePump k) s)

/-- The clearing of the fault of pump `k` (R96): the cause becomes absent and the pump enters RESTING. -/
def clearFault (k : PumpIx) (s : State) : State := enterResting k (s.setPump k { s.pump k with cause := none })

/-- CLEAR FAULT: RANGE unless the pump is FAULTED (R96). -/
def workClearFault (k : Byte) (s : State) : State × Answer :=
  match pumpParameter k with
  | some j => if (s.pump j).state = .faulted then (clearFault j s, .ok []) else (s, .range)
  | none => (s, .range)

/-- CLEAR_FAULT (R96). -/
def execClearFault (k : Byte) (s : State) : Host.Outcome State Fault Refusal :=
  .next (takeCommand (workClearFault k) s)

/-- The minute accumulator that SET RUN MINUTES leaves: 0, but where the second that completes a minute is due at this instant
and not yet counted, so that the minute then adds 1 to the new figure (R100). DEDUCED, safe (log 38). -/
def Pump.accumulatorAtSet (p : Pump) : Nat := if p.secondDue && decide (p.accumulator = 59) then 59 else 0

/-- SET RUN MINUTES: RANGE for an ABSENT pump or an index above 3 (R100). -/
def workSetRunMinutes (k : Byte) (m : BitVec 24) (s : State) : State × Answer :=
  match pumpParameter k with
  | some j =>
    let p := s.pump j
    if p.state = .absent then (s, .range)
    else (s.setPump j { p with runMinutes := m.toNat, accumulator := p.accumulatorAtSet }, .ok [])
  | none => (s, .range)

/-- SET_RUN_MINUTES (R100). -/
def execSetRunMinutes (k : Byte) (m : BitVec 24) (s : State) : Host.Outcome State Fault Refusal :=
  .next (takeCommand (workSetRunMinutes k m) s)

/-! ### Cables and the cable check (R145, R149, R153) -/

/-- SELECT CABLE (R149). -/
def workSelectCable (c : Byte) (s : State) : State × Answer :=
  match cableParameter c with
  | none => (s, .range)
  | some x =>
    if s.line.active = x then (s, .ok [])
    else if (s.line.cable x).locked then (setActive x s, .ok [])
    else (s, .busy)

/-- SELECT_CABLE (R149). -/
def execSelectCable (c : Byte) (s : State) : Host.Outcome State Fault Refusal :=
  .next (takeCommand (workSelectCable c) s)

/-- START CHECK: RANGE for 0, BUSY while the check is RUNNING (R153). -/
def workStartCheck (n : Byte) (s : State) : State × Answer :=
  if n = 0 then (s, .range)
  else if s.line.check.running then (s, .busy)
  else
    ({ s with line := { s.line with check :=
        { s.line.check with running := true, armed := false, roundsLeft := n.toNat, errored := 0, result := .none,
                            roundErrored := false, opened := [], arrivals := [] } } }, .ok [])

/-- START_CHECK (R153). -/
def execStartCheck (n : Byte) (s : State) : Host.Outcome State Fault Refusal := .next (takeCommand (workStartCheck n) s)

/-- STOP_CHECK (R153): a RUNNING check ends ABORTED (R155). -/
def execStopCheck (s : State) : Host.Outcome State Fault Refusal :=
  .next (takeCommand (fun s => (abortCheck s, .ok [])) s)

/-- A probe record with its overflow flag cleared (R126). -/
def Probe.clearOverflow (r : Probe) : Probe := { r with overflow := false }

/-- The probe records with every overflow flag cleared (R126). -/
def clearOverflows (v : Vector Probe 6) : Vector Probe 6 :=
  #v[v[0].clearOverflow, v[1].clearOverflow, v[2].clearOverflow, v[3].clearOverflow, v[4].clearOverflow, v[5].clearOverflow]

/-- CLEAR COUNTERS zeroes the four counters and clears the overflow flags (R126, R145). -/
def workClearCounters (s : State) : State × Answer :=
  ({ s with line := { s.line with a := s.line.a.clearCounters, b := s.line.b.clearCounters },
            gauge := { s.gauge with probes := clearOverflows s.gauge.probes } }, .ok [])

/-- CLEAR_COUNTERS (R145). -/
def execClearCounters (s : State) : Host.Outcome State Fault Refusal := .next (takeCommand workClearCounters s)

/-! ### The table, attention, and unknown characters -/

/-- FORGET ENTRY empties a LOST entry; any other is refused with RANGE (R15). -/
def workForgetEntry (k : Byte) (s : State) : State × Answer :=
  match stationParameter k with
  | some j => if (s.entry j).status = .lost then (s.setEntry j Entry.blank, .ok []) else (s, .range)
  | none => (s, .range)

/-- FORGET_ENTRY (R15). -/
def execForgetEntry (k : Byte) (s : State) : Host.Outcome State Fault Refusal :=
  .next (takeCommand (workForgetEntry k) s)

/-- SET ATTENTION MASK replaces the whole mask (R174). -/
def workSetAttentionMask (m : Byte) (s : State) : State × Answer :=
  if attentionOutOfRange m then (s, .range)
  else ({ s with port := { s.port with mask := m.extractLsb' 0 6 } }, .ok [])

/-- SET_ATTENTION_MASK (R174). -/
def execSetAttentionMask (m : Byte) (s : State) : Host.Outcome State Fault Refusal :=
  .next (takeCommand (workSetAttentionMask m) s)

/-- CLEAR ATTENTION clears the marked flags (R175). -/
def workClearAttention (m : Byte) (s : State) : State × Answer :=
  if attentionOutOfRange m then (s, .range)
  else ({ s with port := { s.port with flags := s.port.flags &&& ~~~(m.extractLsb' 0 6) } }, .ok [])

/-- CLEAR_ATTENTION (R175). -/
def execClearAttention (m : Byte) (s : State) : Host.Outcome State Fault Refusal :=
  .next (takeCommand (workClearAttention m) s)

/-- UNKNOWN (R168): a command character that names no command. One that names a command is not this command and takes nothing
(log 39). -/
def execUnknown (code : Byte) (s : State) : Host.Outcome State Fault Refusal :=
  .next (if (parameterCount code).isNone then takeCommand (fun s => (s, .unknown)) s else s)

end Sys2Proof.Machine
end

