-- ==== Sys2Proof/Machine/Settle.lean ====
section
/-! DEFINITION. The settle point (chapter 3). -/

namespace Sys2Proof.Machine

open Sys2Proof

/-! ### Demand, quota and the allocation -/

/-- The available installed discharge A (R48). -/
def State.installed (s : State) : Nat := (pumpList.filter s.available).length * s.rating

/-- The quarters of A that a held polder class asks for (R49). -/
def demandQuarters : Option (Fin 8) → Nat
  | none => 0
  | some c => if c.val ≤ 1 then 0 else min 4 (c.val - 1)

/-- The demand D: the fraction of A, rounded up (R49). -/
def State.demandNow (s : State) : Nat := (s.installed * demandQuarters s.gauge.polder.heldClass + 3) / 4

/-- The offer an entry adds to the offers considered: that of an own, FRESH or STALE entry (R45). -/
def Entry.offerHeard (e : Entry) : Option Nat :=
  match e.fields with
  | some f => if e.heard then f.offer else none
  | none => none

/-- The smallest of the offers considered (R45, R46). -/
def State.smallestOffer (s : State) : Option Nat :=
  (stationList.filterMap (fun k => (s.entry k).offerHeard)).min?

/-- The base quota, the held quota and its age at a settle point (R46). -/
def baseQuota (offer held : Option Nat) (heldAge fallback : Nat) : Nat × Option Nat × Nat :=
  match offer with
  | some q => (q, some q, 0)
  | none =>
    let age := satAdd 255 heldAge 1
    (if age < 240 then held.getD fallback else fallback, held, age)

/-- The district quota from the base quota and the accepted flags (R47). -/
def districtQuota (base : Nat) (flags : FlagSet) : Nat :=
  if dischargeBan flags then 0 else if halfQuota flags then base / 2 else base

/-- The remainder of Qd after the reservations of the LOST entries, lowest number first, each cut to what is left (R50). -/
def State.remainderAfterReservations (s : State) (qd : Nat) : Nat :=
  stationList.foldl (fun left k => left - min left (s.entry k).reservation) qd

/-- A participant of the allocation (R51). -/
structure Participant where
  station : Station
  committed : Nat
  demand : Nat
  deriving DecidableEq, Repr

/-- The figures with which station `k` takes part at class `c`: those of its FRESH or STALE entry, the own entry with D of this
settle point and C as it stands (R51). -/
def State.participantAt (s : State) (demand : Nat) (c : Fin 8) (k : Station) : Option Participant :=
  match (s.entry k).fields with
  | none => none
  | some f =>
    if (s.entry k).heard && decide (f.polderClass = some c) then
      some { station := k, committed := f.committed, demand := if k = s.own then demand else f.demand }
    else none

/-- The classes, highest first. -/
def classesDown : List (Fin 8) := [7, 6, 5, 4, 3, 2, 1, 0]

/-- The participants in order: highest class first, then lowest station number (R51). -/
def State.participants (s : State) (demand : Nat) : List Participant :=
  classesDown.flatMap (fun c => stationList.filterMap (s.participantAt demand c))

/-- The keep pass: each participant with its grant, and the remainder (R52). -/
def keepPass : Nat → List Participant → List (Participant × Nat) × Nat
  | left, [] => ([], left)
  | left, p :: ps =>
    let grant := min p.committed left
    let (rest, out) := keepPass (left - grant) ps
    ((p, grant) :: rest, out)

/-- The fill pass: each grant raised toward the demand, and the remainder (R53). -/
def fillPass : Nat → List (Participant × Nat) → List (Participant × Nat) × Nat
  | left, [] => ([], left)
  | left, (p, grant) :: ps =>
    let more := min (p.demand - grant) left
    let (rest, out) := fillPass (left - more) ps
    ((p, grant + more) :: rest, out)

/-- The final grants (R50 to R53). -/
def State.grants (s : State) (qd demand : Nat) : List (Participant × Nat) :=
  let (kept, left) := keepPass (s.remainderAfterReservations qd) (s.participants demand)
  (fillPass left kept).1

/-- The own grant: 0 where the own entry takes no part (R53). -/
def State.ownGrant (s : State) (qd demand : Nat) : Nat :=
  ((s.grants qd demand).find? (fun g => decide (g.1.station = s.own))).elim 0 Prod.snd

/-- The figures of the settle point up to E and T (R45 to R54). -/
def settleFigures (s : State) : Allocation :=
  let demand := s.demandNow
  let (base, held, age) := baseQuota s.smallestOffer s.alloc.heldQuota s.alloc.heldAge s.straps.fallbackQuota
  let qd := districtQuota base s.table.accepted
  let entitlement := if s.timer.mode = .member then s.ownGrant qd demand else s.islandShare
  { heldQuota := held, heldAge := age, qd := qd, entitlement := entitlement, demand := demand,
    target := min entitlement demand, startWanted := none, shedSinceSettle := false }

/-! ### The three decisions -/

/-- Of two pumps the one to be stopped first: more run minutes, then the higher index (R57, R58). -/
def stopsBefore (s : State) (k j : PumpIx) : Bool :=
  decide ((s.pump j).runMinutes < (s.pump k).runMinutes) ||
    (decide ((s.pump j).runMinutes = (s.pump k).runMinutes) && decide (j < k))

/-- The pump of a list to be stopped first. -/
def stopChoice (s : State) : List PumpIx → Option PumpIx
  | [] => none
  | k :: ks => match stopChoice s ks with
    | none => some k
    | some j => if stopsBefore s k j then some k else some j

/-- The pump to be shed: the starting pump, then the RUNNING pumps (R57). -/
def shedChoice (s : State) : Option PumpIx :=
  match pumpList.find? (fun k => (s.pump k).state.starting) with
  | some k => some k
  | none => stopChoice s (pumpList.filter (fun k => decide ((s.pump k).state = .running)))

/-- Shed stops one at a time until C is within the limit (R56); `fuel` is the number of pumps. -/
def shedUntil (limit : Nat) : Nat → State → State
  | 0, s => s
  | fuel + 1, s =>
    if limit < s.committed then
      match shedChoice s with
      | some k => shedUntil limit fuel (shedStop k s)
      | none => s
    else s

/-- The pump to which a demand stop is issued (R58). -/
def demandStopChoice (s : State) : Option PumpIx :=
  let running := pumpList.filter (fun k => decide ((s.pump k).state = .running))
  if districtStop s.table.accepted || s.gauge.flood || running.any (fun k => (s.pump k).finishing) then none
  else if s.alloc.demand + s.rating ≤ s.committed then
    stopChoice s (running.filter (fun k => (s.pump k).pastMinRun))
  else none

/-- Of two pumps the one to be started first: fewer run minutes, then the lower index (R60). -/
def startsBefore (s : State) (k j : PumpIx) : Bool :=
  decide ((s.pump k).runMinutes < (s.pump j).runMinutes) ||
    (decide ((s.pump k).runMinutes = (s.pump j).runMinutes) && decide (k < j))

/-- The pump of a list to be started first. -/
def startChoice (s : State) : List PumpIx → Option PumpIx
  | [] => none
  | k :: ks => match startChoice s ks with
    | none => some k
    | some j => if startsBefore s k j then some k else some j

/-- Start wanted with its candidate, or clear (R60); `shed` says that a shed stop was issued at this settle point. -/
def startWantedNow (shed : Bool) (s : State) : Option PumpIx :=
  if decide (s.timer.mode = .member) && !districtStop s.table.accepted && !startHold s.table.accepted && !shed &&
      !pumpList.any (fun k => (s.pump k).state.starting) && decide (s.committed + s.rating ≤ s.alloc.target) then
    startChoice s (pumpList.filter (fun k => decide ((s.pump k).state = .idle) && !s.sumpLow k))
  else none

/-- The settle work (R42): the figures, then the shed decision against the limit L, which is E as R54 forms it in every mode,
then the demand stop where no shed was needed, then start wanted. -/
def settleWork (s : State) : State :=
  let s := { s with alloc := settleFigures s }
  let limit := s.alloc.entitlement
  let shed := decide (limit < s.committed)
  let s :=
    if shed then shedUntil limit 4 s
    else match demandStopChoice s with
      | some k => demandStop false k s
      | none => s
  { s with alloc := { s.alloc with startWanted := startWantedNow shed s, shedSinceSettle := shed } }

/-- The settle point is taken at most once in a round (R24). -/
def takeSettlePoint (s : State) : State :=
  if s.timer.settleTaken then s
  else settleWork { s with timer := { s.timer with settleTaken := true } }

/-- SETTLE_POINT (R42). -/
def execSettlePoint (s : State) : Host.Outcome State Fault Refusal := .next (whenRunning takeSettlePoint s)

end Sys2Proof.Machine
end

