-- ==== Sys2Proof/Machine/StartWindow.lean ====
section
/-! DEFINITION. The start window (chapter 4). -/

namespace Sys2Proof.Machine

open Sys2Proof

/-- The urgency (R65). -/
def State.urgency (s : State) : Nat :=
  if s.gauge.flood then 7
  else match s.gauge.polder.heldClass with
    | some c => c.val
    | none => 0

/-- The threshold (R66). -/
def windowThreshold (flood : Bool) (urgency : Nat) (last : LastResult) : Nat :=
  if flood then 1
  else (if 5 ≤ urgency then 2 else 4) + (if last = .win then 1 else 0)

/-- The candidate with which the station contends in the window now opening, where it does (R67). -/
def State.contendsWith (s : State) (threshold : Nat) : Option PumpIx :=
  match s.alloc.startWanted with
  | some k =>
    if decide (s.timer.mode = .member) && decide (threshold ≤ s.arb.freeWindows) && s.startValid k then some k else none
  | none => none

/-- The opening of a window (R64 to R67): at most once in a round; the decoders are held for its arbitration bits (R144). -/
def openWindow (s : State) : State :=
  if s.timer.windowTaken then s
  else
    let threshold := windowThreshold s.gauge.flood s.urgency s.arb.lastResult
    let candidate := s.contendsWith threshold
    let w : Window := { elapsed := 0, notFree := false, bitsRead := 0, word := arbitrationWord s.urgency s.own,
                        cables := [s.line.active], holding := false }
    let s := holdDecoders s
    { s with timer := { s.timer with windowTaken := true },
             line := { s.line with windowHold := true },
             arb := { s.arb with threshold := threshold, window := some w, pendingStart := candidate,
                                 part := if candidate.isSome then .contending else .out } }

/-- WINDOW_OPENING (R67). -/
def execWindowOpening (s : State) : Host.Outcome State Fault Refusal := .next (whenRunning openWindow s)

/-- The window under way is marked not free (R75). -/
def markNotFree (s : State) : State :=
  { s with arb := { s.arb with window := s.arb.window.map (fun w => { w with notFree := true }) } }

/-- A driven level of the active cable counts from 0.0 to 7.0 ms, which is the hold of the window (R75, R144, R150, R152). -/
def seeDrivenLevel (s : State) : State := if s.line.windowHold then markNotFree s else s

/-- WINDOW_DRIVEN_LEVEL (R75). -/
def execWindowDrivenLevel (s : State) : Host.Outcome State Fault Refusal := .next (whenRunning seeDrivenLevel s)

/-- The arbiter's act on the reading of a cell in which it sent `released` (R68): it goes on, withdraws with LOSS, or withdraws
and records nothing. -/
def Arbiter.readBit (released driven : Bool) (a : Arbiter) : Arbiter :=
  match released, driven with
  | true, true => { a with part := .withdrawn, pendingStart := none, lastResult := .loss }
  | false, false => { a with part := .withdrawn, pendingStart := none }
  | true, false => a
  | false, true => a

/-- The reading at the middle of a cell (R68, R152): a driven level of the cable active now counts for the window (R75), and a
contending station compares the bit it sends with the level of the cable that was active as the cell began (R150, log 23). -/
def readArbitrationBit (driven : DrivenLevels) (s : State) : State :=
  match s.arb.window with
  | none => s
  | some w =>
    if s.line.windowHold && decide (w.bitsRead < 7) then
      let a := { s.arb with window := some { w with bitsRead := w.bitsRead + 1
                                                    notFree := w.notFree || driven.on s.line.active } }
      let sampled := driven.on (latchedCable w.cables w.bitsRead s.line.active)
      { s with arb := if a.part = .contending then a.readBit (wordBit w.word w.bitsRead) sampled else a }
    else s

/-- ARBITRATION_BIT_READING (R68). -/
def execArbitrationBitReading (driven : DrivenLevels) (s : State) : Host.Outcome State Fault Refusal :=
  .next (whenRunning (readArbitrationBit driven) s)

/-- The end of the last bit (R70): a station still CONTENDING has won, and a realignment is held from now on (R29). The
decoders' hold ends (R144). -/
def endLastBit (s : State) : State :=
  if s.line.windowHold then
    let s := { s with line := { s.line with windowHold := false } }
    if s.arb.part = .contending then
      let window := s.arb.window.map (fun w => ({ w with holding := true } : Window))
      { s with arb := { s.arb with part := .won, lastResult := .win, window := window } }
    else s
  else s

/-- LAST_BIT_END (R70). -/
def execLastBitEnd (s : State) : Host.Outcome State Fault Refusal := .next (whenRunning endLastBit s)

/-- 10.0 ms into the window (R71): a station in WON that has not gone SILENT sends its confirmation; where none is sent, the
hold of a realignment ends (R29). One confirmation is sent in a window at most. -/
def beginConfirmation (s : State) : State :=
  if s.line.tx.isSome || s.arb.confirmClean then s
  else match s.arb.part, s.arb.pendingStart with
    | .won, some k =>
      if s.timer.mode = .silent then releaseRealignment s
      else beginTransmission .confirmation (confirmationChars s.own k s.rating) s
    | _, _ => releaseRealignment s

/-- CONFIRMATION_BEGIN (R71). -/
def execConfirmationBegin (inp : Inputs) (s : State) : Host.Outcome State Fault Refusal :=
  .next (whenRunning beginConfirmation (withInputs inp s))

/-- A confirmation whose characters have all come back unchanged is at its end (R151). -/
def finishConfirmation (s : State) : State :=
  match s.line.tx with
  | some t =>
    if t.kind = .confirmation ∧ t.returned = t.chars.length then finishTransmission t s else s
  | none => s

/-- The pending pump goes to PRIMING where its start is still valid (R72, R85), and the sampling mode follows its change of state
at once (R135). -/
def takeStart (s : State) : State :=
  match s.arb.pendingStart with
  | some k => if s.startValid k then syncSampling (startPump k s) else s
  | none => s

/-- The start after a clean confirmation (R72): the own start seen, the pump, the pending start; then a realignment held since
the last bit is applied (R29, R70). That the start comes first of the two is the model's. DESIGN CHOICE, unsafe (log 34). -/
def takeOrDropStart (s : State) : State :=
  let s := finishConfirmation s
  if s.arb.confirmClean then
    let s := takeStart { s with table := { s.table with ownStartSeen := some s.timer.count } }
    releaseRealignment { s with arb := { s.arb with confirmClean := false, pendingStart := none } }
  else s

/-- START_TAKEN_OR_DROPPED (R72). The drop at a read-back failure comes with that failure (R73, log 24). -/
def execStartTakenOrDropped (inp : Inputs) (s : State) : Host.Outcome State Fault Refusal :=
  .next (whenRunning takeOrDropStart (withInputs inp s))

/-- The end of the window (R75, R77): judged free or not, then start wanted is cleared and the window part returns to OUT. -/
def endWindow (s : State) : State :=
  match s.arb.window with
  | none => s
  | some w =>
    { s with arb := { s.arb with freeWindows := if w.notFree then 0 else satAdd 255 s.arb.freeWindows 1,
                                 part := .out, pendingStart := none, window := none, confirmClean := false },
             alloc := { s.alloc with startWanted := none },
             line := { s.line with windowHold := false } }

/-- WINDOW_END (R77). -/
def execWindowEnd (s : State) : Host.Outcome State Fault Refusal := .next (whenRunning endWindow s)

end Sys2Proof.Machine
end

