-- ==== Sys2Proof/Machine/Transmit.lean ====
section
/-! DEFINITION. The frames the part sends and their read-back (R144, R151). -/

namespace Sys2Proof.Machine

open Sys2Proof

/-- 1.0 ms into the own slot the announcement handed over begins on both cables (R40, R151). -/
def beginAnnouncement (s : State) : State :=
  match s.line.handed with
  | some cs => beginTransmission .announcement cs s
  | none => s

/-- ANNOUNCEMENT_TRANSMIT_BEGIN (R151). -/
def execAnnouncementTransmitBegin (s : State) : Host.Outcome State Fault Refusal :=
  .next (whenRunning beginAnnouncement s)

/-- The comparison of one character (R151): on the cable that was active at its start edge (R150, log 23). The other cable's copy
is kept for the check (R154). -/
def readBackCharacter (onA onB : Returned) (s : State) : State :=
  match s.line.tx with
  | none => s
  | some t =>
    match t.chars[t.returned]? with
    | none => s
    | some c =>
      let compared := latchedCable t.cables t.returned s.line.active
      if returnsUnchanged c (compared.choose onA onB) then
        { s with line := { s.line with tx := some { t with returned := t.returned + 1
                                                           standby := t.standby ++ [compared.choose onB onA] } } }
      else failReadBack t s

/-- CHARACTER_READ_BACK (R151). -/
def execCharacterReadBack (onA onB : Returned) (inp : Inputs) (s : State) : Host.Outcome State Fault Refusal :=
  .next (whenRunning (readBackCharacter onA onB) (withInputs inp s))

/-- Another station's transmission falls on the frame: a read-back failure (R151, case 4; R71). -/
def foreignEdge (s : State) : State :=
  match s.line.tx with
  | some t => failReadBack t s
  | none => s

/-- FOREIGN_EDGE_ON_FRAME (R151). -/
def execForeignEdgeOnFrame (inp : Inputs) (s : State) : Host.Outcome State Fault Refusal :=
  .next (whenRunning foreignEdge (withInputs inp s))

/-- The end of the last character of a frame that has come back whole (R151). -/
def endTransmission (s : State) : State :=
  match s.line.tx with
  | some t => if t.returned = t.chars.length then finishTransmission t s else s
  | none => s

/-- TRANSMISSION_END (R151). -/
def execTransmissionEnd (s : State) : Host.Outcome State Fault Refusal := .next (whenRunning endTransmission s)

end Sys2Proof.Machine
end

