-- ==== Sys2Proof/Machine/Dispatch.lean ====
section
/-! DEFINITION. The dispatch: one arm for each row of spec/opcode_table.json. -/

namespace Sys2Proof.Machine

open Sys2Proof

def exec (i : Instr) (s : State) : Host.Outcome State Fault Refusal :=
  match i with
  | .coldReset => Sys2Proof.Machine.execColdReset s
  | .warmReset low => Sys2Proof.Machine.execWarmReset low s
  | .strapReadingComplete levels => Sys2Proof.Machine.execStrapReadingComplete levels s
  | .roundEnd inp => Sys2Proof.Machine.execRoundEnd inp s
  | .settlePoint => Sys2Proof.Machine.execSettlePoint s
  | .windowOpening => Sys2Proof.Machine.execWindowOpening s
  | .arbitrationBitReading driven => Sys2Proof.Machine.execArbitrationBitReading driven s
  | .lastBitEnd => Sys2Proof.Machine.execLastBitEnd s
  | .confirmationBegin inp => Sys2Proof.Machine.execConfirmationBegin inp s
  | .startTakenOrDropped inp => Sys2Proof.Machine.execStartTakenOrDropped inp s
  | .windowEnd => Sys2Proof.Machine.execWindowEnd s
  | .ownSlotStart inp => Sys2Proof.Machine.execOwnSlotStart inp s
  | .announcementTransmitBegin => Sys2Proof.Machine.execAnnouncementTransmitBegin s
  | .characterReadBack onA onB inp => Sys2Proof.Machine.execCharacterReadBack onA onB inp s
  | .foreignEdgeOnFrame inp => Sys2Proof.Machine.execForeignEdgeOnFrame inp s
  | .transmissionEnd => Sys2Proof.Machine.execTransmissionEnd s
  | .characterComplete c r => Sys2Proof.Machine.execCharacterComplete c r s
  | .frameArrival c inp => Sys2Proof.Machine.execFrameArrival c inp s
  | .frameTruncated c => Sys2Proof.Machine.execFrameTruncated c s
  | .checkComparisonTimeout => Sys2Proof.Machine.execCheckComparisonTimeout s
  | .checkPulseEnd => Sys2Proof.Machine.execCheckPulseEnd s
  | .primeSenseAsserted k => Sys2Proof.Machine.execPrimeSenseAsserted k s
  | .primeTimerExpiry k => Sys2Proof.Machine.execPrimeTimerExpiry k s
  | .feedbackDueExpiry k runFb => Sys2Proof.Machine.execFeedbackDueExpiry k runFb s
  | .minimumRunExpiry k => Sys2Proof.Machine.execMinimumRunExpiry k s
  | .restTimerExpiry k => Sys2Proof.Machine.execRestTimerExpiry k s
  | .runSecond k => Sys2Proof.Machine.execRunSecond k s
  | .stepCompletion k => Sys2Proof.Machine.execStepCompletion k s
  | .countingWindowEnd g probeCycles referenceCycles => Sys2Proof.Machine.execCountingWindowEnd g probeCycles referenceCycles s
  | .transactionBegin => Sys2Proof.Machine.execTransactionBegin s
  | .transactionEnd => Sys2Proof.Machine.execTransactionEnd s
  | .readStation => Sys2Proof.Machine.execReadStation s
  | .readEntry k inp => Sys2Proof.Machine.execReadEntry k inp s
  | .readPump k => Sys2Proof.Machine.execReadPump k s
  | .readProbe g p => Sys2Proof.Machine.execReadProbe g p s
  | .readCables => Sys2Proof.Machine.execReadCables s
  | .readFlagChanges => Sys2Proof.Machine.execReadFlagChanges s
  | .writeStep ix sp h m => Sys2Proof.Machine.execWriteStep ix sp h m s
  | .writePointers k u r d q => Sys2Proof.Machine.execWritePointers k u r d q s
  | .holdPump k => Sys2Proof.Machine.execHoldPump k s
  | .releasePump k => Sys2Proof.Machine.execReleasePump k s
  | .clearFault k => Sys2Proof.Machine.execClearFault k s
  | .setRunMinutes k m => Sys2Proof.Machine.execSetRunMinutes k m s
  | .selectCable c => Sys2Proof.Machine.execSelectCable c s
  | .startCheck n => Sys2Proof.Machine.execStartCheck n s
  | .stopCheck => Sys2Proof.Machine.execStopCheck s
  | .forgetEntry k => Sys2Proof.Machine.execForgetEntry k s
  | .clearCounters => Sys2Proof.Machine.execClearCounters s
  | .setAttentionMask m => Sys2Proof.Machine.execSetAttentionMask m s
  | .clearAttention m => Sys2Proof.Machine.execClearAttention m s
  | .unknown code => Sys2Proof.Machine.execUnknown code s
  | .resetEnd => Sys2Proof.Machine.execResetEnd s
  | .windowDrivenLevel => Sys2Proof.Machine.execWindowDrivenLevel s
  | .decoderInputReleased c => Sys2Proof.Machine.execDecoderInputReleased c s

end Sys2Proof.Machine
end

