-- ==== Sys2Proof/Machine/Step.lean ====
section
/-! DEFINITION. The step: the command at the front of the queue runs on the state with the rest of the queue. On an empty queue
the part's own time goes on (log 2). -/

namespace Sys2Proof.Machine

open Sys2Proof

/-- One step. -/
def step (s : State) : Host.Outcome State Fault Refusal :=
  match s.pending with
  | c :: rest => exec c { s with pending := rest }
  | [] => .next (idle s)

/-- The state with the command whose characters a word carries at the front of its queue, its pins those of the state; unchanged
where the word carries none (R165, R179, log 6). -/
def State.withFetchWord (s : State) (nbits w : Nat) : State :=
  match wordCommand s.inputs nbits w with
  | some c => { s with pending := c :: s.pending }
  | none => s

end Sys2Proof.Machine
end

