-- ==== Sys2Proof/Machine/Outputs.lean ====
section
/-! DEFINITION. The output pins (00, Pin summary), each a view of the state (log 25). -/

namespace Sys2Proof.Machine

open Sys2Proof

/-- DRIVE of pump `k` is on: the speed reference within its duty at a variable-speed station, the contactor closed at a
fixed-speed one (R101). Off in a reset, in the strap reading and in STRAP FAULT (R159, R162). The counts for which a speed reference
is on stand at the begin of its period. DESIGN CHOICE, unsafe (log 45). -/
def State.driveOn (s : State) (k : PumpIx) : Bool :=
  s.isRunning &&
    (if s.straps.variableSpeed then decide (s.drives.position < s.drives.duty[k]) else decide (0 < s.driveSpeed k))

/-- VALVE of pump `k` is open: in PRIMING alone (R102). -/
def State.valveOpen (s : State) (k : PumpIx) : Bool := s.isRunning && decide ((s.pump k).state = .priming)

/-- The level an own frame puts on the line at its elapsed time: cell n of the characters, each of 32 µs (R140, R151). -/
def Transmission.driven (t : Transmission) : Bool :=
  match t.chars[t.elapsed / 352]? with
  | some c => !(readingsOf c).getLsbD (t.elapsed % 352 / 32)
  | none => false

/-- The level the arbitration word puts on the line: the cell's bit while the station contends (R68, R152). -/
def Arbiter.driven (a : Arbiter) : Bool :=
  match a.window with
  | some w => decide (a.part = .contending) && decide (w.elapsed < 7000) && !wordBit w.word (w.elapsed / 1000)
  | none => false

/-- LINE_A_TX and LINE_B_TX are driven, both alike (R139). -/
def State.lineDriven (s : State) : Bool :=
  s.isRunning && ((match s.line.tx with | some t => t.driven | none => false) || s.arb.driven)

/-- HOP_P (R124). -/
def State.hopP (s : State) : BitVec 3 := s.gauge.polder.hop

/-- HOP_O (R121, R124). -/
def State.hopO (s : State) : BitVec 3 := s.gauge.outfall.hop

/-- CHECK is low (R155). -/
def State.checkLow (s : State) : Bool := s.isRunning && s.line.check.pulse.isSome

/-- ATTN is low (R173): in STRAP FAULT always, while running where an enabled flag is pending, and otherwise not. -/
def State.attnLow (s : State) : Bool :=
  match s.cond with
  | .strapFault => true
  | .running => decide (s.port.flags &&& s.port.mask ≠ 0)
  | .reset _ | .strapReading => false

/-- Character `n` that SDO carries after the taking, counted from 0: the answer's, and 0x00 after its end (R165); none while
SDO carries no answer, and while SSEL is high, where SDO is released. -/
def State.sdo (s : State) (n : Nat) : Option Byte :=
  if s.port.selected then s.port.answer.map (fun cs => cs.getD n 0) else none

/-- The level of SDO after falling edge `n` of SCLK since the taking, counted from 0: the characters of the answer, most
significant bit first (R165); none while SDO carries no answer or is released. -/
def State.sdoBit (s : State) (n : Nat) : Option Bool := (s.sdo (n / 8)).map (fun c => c.getLsbD (7 - n % 8))

end Sys2Proof.Machine
end

