-- ==== Sys2Proof/Safety.lean ====
section
/-! DEFINITION. The words of the statements: the conditions on a state under which a command acts, what an answer leaves
unchanged, and the invariants that the part's steps keep. -/

namespace Sys2Proof.Machine

open Sys2Proof

/-! ### Conditions on a state -/

/-- The blocks run, a transaction is open, and no command has been taken in it: a command is taken now and judged by its own
rule (R165, R168). -/
def State.takes (s : State) : Prop := s.cond = .running ∧ s.port.selected = true ∧ s.port.answer = none

/-- The state with an answer formed and nothing else changed. -/
def State.answering (cs : List Byte) (s : State) : State := { s with port := { s.port with answer := some cs } }

/-- The status characters (R179). -/
def statusOk : Byte := 0xA0
def statusBusy : Byte := 0xA1
def statusRange : Byte := 0xA2
def statusUnknown : Byte := 0xA3
def statusFault : Byte := 0xA4

/-- The input pins after a service command: those that READ ENTRY carries, and otherwise those that stood (log 5). -/
def State.pinsAfter (s : State) : Instr → Inputs
  | .readEntry _ inp => inp
  | _ => s.inputs

/-- A pump is in PRIMING, RAMP_UP, RUNNING or RAMP_DOWN (5.2). -/
def State.pumpActive (s : State) (k : PumpIx) : Prop :=
  (s.pump k).state = .priming ∨ (s.pump k).state = .rampUp ∨ (s.pump k).state = .running ∨ (s.pump k).state = .rampDown

/-- A pump is in PRIMING, RAMP_UP or RUNNING (R55). -/
def State.pumpCommitted (s : State) (k : PumpIx) : Prop :=
  (s.pump k).state = .priming ∨ (s.pump k).state = .rampUp ∨ (s.pump k).state = .running

/-- The sump that serves pump `k` is LOW (00, Station and pump numbering). -/
def State.sumpIsLow (s : State) (k : PumpIx) : Prop :=
  (k.val < 2 ∧ s.gauge.sumpA.low = true) ∨ (2 ≤ k.val ∧ s.gauge.sumpB.low = true)

/-- A candidate for timing reference (R26). -/
def State.isReferenceCandidate (s : State) (k : Station) : Prop :=
  (k = s.own ∧ (s.timer.mode = .member ∨ s.timer.mode = .isolated)) ∨
    (k ≠ s.own ∧ (s.table.entries[k]).status = .fresh ∧
      ∃ f, (s.table.entries[k]).fields = some f ∧ (f.mode = .member ∨ f.mode = .isolated))

/-- The reference is the lowest-numbered candidate, and none where there is no candidate (R26). -/
def State.referenceChosen (s : State) : Prop :=
  (∀ k, s.timer.reference = some k → s.isReferenceCandidate k ∧ ∀ j, j < k → ¬ s.isReferenceCandidate j) ∧
    (s.timer.reference = none → ∀ k, ¬ s.isReferenceCandidate k)

/-- The conditions of R69 on a start of pump `k`. -/
def State.startIsValid (s : State) (k : PumpIx) : Prop :=
  (s.pump k).state = .idle ∧ ¬ s.sumpIsLow k ∧ s.table.accepted.getLsbD 1 = false ∧ s.table.accepted.getLsbD 2 = false ∧
    s.timer.mode = .member ∧ s.alloc.shedSinceSettle = false

/-- The entry of another station is FRESH or STALE and holds these fields. -/
def State.heardFields (s : State) (k : Station) (f : EntryFields) : Prop :=
  k ≠ s.own ∧ ((s.table.entries[k]).status = .fresh ∨ (s.table.entries[k]).status = .stale) ∧
    (s.table.entries[k]).fields = some f

/-- The number of pumps with a property. -/
def countPumps (P : PumpIx → Bool) : Nat := (([0, 1, 2, 3] : List PumpIx).filter P).length

/-- The available installed discharge A: the rating for each available pump over a sump that is not LOW (R48). -/
def State.availableDischarge (s : State) : Nat :=
  (s.straps.rating.val + 1) *
    countPumps (fun k =>
      decide ((s.pump k).state ∈
          ([.idle, .resting, .priming, .rampUp, .running, .rampDown] : List PumpState)) &&
        !(if k.val < 2 then s.gauge.sumpA.low else s.gauge.sumpB.low))

/-- The committed discharge C: the rating for each pump in PRIMING, RAMP_UP or RUNNING (R55). -/
def State.committedDischarge (s : State) : Nat :=
  (s.straps.rating.val + 1) *
    countPumps (fun k => decide ((s.pump k).state ∈ ([.priming, .rampUp, .running] : List PumpState)))

/-- The demand of a class on a discharge, rounded up (R49). -/
def demandOf (available : Nat) : Option (Fin 8) → Nat
  | none => 0
  | some c =>
    if c.val ≤ 1 then 0
    else if c.val = 2 then (available + 3) / 4
    else if c.val = 3 then (available + 1) / 2
    else if c.val = 4 then (3 * available + 3) / 4
    else available

/-- An offer is considered: the own, or that of a FRESH or STALE entry (R45). -/
def State.offerConsidered (s : State) (q : Nat) : Prop :=
  s.ownOffer = some q ∨ ∃ k f, s.heardFields k f ∧ f.offer = some q

/-- What a pump has worked, from `p` before it leaves RAMP_UP and RUNNING to `q` after it: a whole second complete at that
instant counts, and nothing else changes (R99). -/
def Pump.keepsWork (p q : Pump) : Prop :=
  let complete := (p.state = .rampUp ∨ p.state = .running) ∧ p.secondTimer = some 0
  (¬ complete → q.runMinutes = p.runMinutes ∧ q.accumulator = p.accumulator) ∧
    (complete → p.accumulator < 59 → q.runMinutes = p.runMinutes ∧ q.accumulator = p.accumulator + 1) ∧
    (complete → 59 ≤ p.accumulator → q.runMinutes = min 16777215 (p.runMinutes + 1) ∧ q.accumulator = 0)

/-- What a read-back failure makes of `s`: the frame stops, the failure counts once a round, and the third round in a row with one
sends the station to SILENT, which sends nothing more: an announcement handed over is dropped (R38, R39, R151, log 22). That the
joining count of a JOINING station then stands is the model's choice between R34 and R39 (log 31). -/
def State.failsReadBack (s u : State) : Prop :=
  u.line = { s.line with tx := none, handed := u.line.handed } ∧ u.arb = { s.arb with pendingStart := u.arb.pendingStart } ∧
    (s.timer.failedInRound = true → u.timer = s.timer ∧ u.port = s.port ∧ u.line.handed = s.line.handed) ∧
    (s.timer.failedInRound = false → s.timer.readBackCount < 2 →
      u.timer = { s.timer with failedInRound := true, readBackCount := s.timer.readBackCount + 1 } ∧ u.port = s.port ∧
      u.line.handed = s.line.handed) ∧
    (s.timer.failedInRound = false → 2 ≤ s.timer.readBackCount →
      u.timer = { s.timer with failedInRound := true, readBackCount := s.timer.readBackCount + 1, mode := .silent,
                               reference := u.timer.reference } ∧
      (s.timer.mode ≠ .silent →
        u.line.handed = none ∧ u.port = { s.port with flags := s.port.flags ||| 0b100000 } ∧ u.referenceChosen)) ∧
    u = { s with timer := u.timer, arb := u.arb, line := u.line, port := u.port }

/-- What the cable check makes of a frame with these characters that is valid on the active cable: while a check is RUNNING, from the
first round end after its start on, the frame is compared with the earliest frame that arrived on the standby within the last
1.0 ms, or stands open where there is none (R154, log 15). -/
def CableCheck.afterActive (k : CableCheck) (cs : List Byte) : CableCheck :=
  if k.running = true ∧ k.armed = true then
    match k.arrivals.find? (fun r => decide (r.age ≤ 1000)) with
    | some r => { k with roundErrored := k.roundErrored || decide (r.chars ≠ some cs) }
    | none => { k with opened := k.opened ++ [⟨cs, 0⟩] }
  else k

/-! ### The district table (R1, R2, R13, R20) -/

/-- An entry is EMPTY with nothing in it, or holds every announced field with the status its age gives. -/
def Entry.sound (e : Entry) : Prop :=
  e = { status := .empty, age := 255, fields := none, startSeen := none, lastCount := none } ∨
    (e.fields.isSome = true ∧
      ((e.age ≤ 1 ∧ e.status = .fresh) ∨ (2 ≤ e.age ∧ e.age ≤ 7 ∧ e.status = .stale) ∨
        (8 ≤ e.age ∧ e.age ≤ 255 ∧ e.status = .lost)))

/-- Every entry is sound, and the flag change queue holds at most two records. -/
def State.tableSound (s : State) : Prop :=
  (∀ k : Station, (s.table.entries[k]).sound) ∧ s.table.queue.length ≤ 2

/-! ### Profiles, players and pumps (R80, R105, R107, R109) -/

/-- Every step and every pointer entry is in its range. -/
def State.profilesSound (s : State) : Prop :=
  (∀ i : Fin 64, (s.profile[i]).speed ≤ 100 ∧ 1 ≤ (s.profile[i]).hold ∧ (s.profile[i]).hold ≤ 255) ∧
    (∀ k : PumpIx, 1 ≤ (s.pointers[k]).rate ∧ (s.pointers[k]).rate ≤ 8)

/-- A PLAYING player has a step under way, and an IDLE one has none of a play's fields (R109). -/
def Player.sound (p : Player) : Prop :=
  p.speed ≤ 100 ∧ p.runaway < 64 ∧
    ((p.playing = true ∧ p.mode.isSome = true ∧ p.start.isSome = true ∧ p.step.isSome = true ∧ p.timeLeft.isSome = true ∧
        ∃ t, p.tick = some t ∧ 100000 ≤ t ∧ t ≤ 800000) ∨
      (p.playing = false ∧ p.mode = none ∧ p.start = none ∧ p.step = none ∧ p.tick = none ∧ p.timeLeft = none ∧
        p.runaway = 0 ∧ p.finish = false))

/-- A pump's fields agree with its state: the cause stands in FAULTED alone, each timer runs only where its rule starts it, and
the stop mark stands only in RAMP_UP and RUNNING (R80, R84, R85, R90 to R94). -/
def Pump.sound (p : Pump) : Prop :=
  (p.cause.isSome = true ↔ p.state = .faulted) ∧ (p.primeTimer.isSome = true ↔ p.state = .priming) ∧
    (p.restTimer.isSome = true ↔ p.state = .resting) ∧
    (p.finishing = true ∨ p.feedbackTimer.isSome = true ∨ p.minRunTimer.isSome = true ∨ p.supervised = true ∨
        p.pastMinRun = true ∨ p.missCount ≠ 0 →
      p.state = .rampUp ∨ p.state = .running) ∧
    p.missCount ≤ 1 ∧ p.accumulator ≤ 59 ∧ p.runMinutes ≤ 16777215

/-- What the state of pump `k` asks of its player and its output: a ramp plays; where no play and no held speed belongs to the
state, the player is IDLE at speed 0 and the speed reference is off (R101, R112, R114, R120). -/
def State.driveSound (s : State) (k : PumpIx) : Prop :=
  ((s.pump k).state = .rampUp ∨ (s.pump k).state = .rampDown → (s.player k).playing = true) ∧
    ((s.pump k).state ≠ .rampUp → (s.pump k).state ≠ .running → (s.pump k).state ≠ .rampDown →
      (s.player k).playing = false ∧ (s.player k).speed = 0 ∧ s.drives.duty[k] = 0)

/-- Profiles, players and pumps are sound; and before the blocks run, every pump is as a reset leaves it (R81, R109). -/
def State.pumpsSound (s : State) : Prop :=
  s.profilesSound ∧ (∀ k : PumpIx, (s.player k).sound ∧ (s.pump k).sound ∧ s.driveSound k) ∧
    (s.cond ≠ .running → ∀ k : PumpIx, s.pump k = Pump.reset (s.pump k).runMinutes)

/-- While F1 DISTRICT STOP is accepted, no pump is in an active state (R19). -/
def State.districtStopHolds (s : State) : Prop :=
  s.table.accepted.getLsbD 1 = true →
    ∀ k : PumpIx, (s.pump k).state ≠ .priming ∧ (s.pump k).state ≠ .rampUp ∧ (s.pump k).state ≠ .running ∧
      (s.pump k).state ≠ .rampDown

/-- While a sump is LOW, no pump of it is in PRIMING, RAMP_UP or RUNNING (R103). -/
def State.lowSumpHolds (s : State) : Prop :=
  (s.gauge.sumpA.low = true →
      ∀ k : PumpIx, k.val < 2 →
        (s.pump k).state ≠ .priming ∧ (s.pump k).state ≠ .rampUp ∧ (s.pump k).state ≠ .running) ∧
    (s.gauge.sumpB.low = true →
      ∀ k : PumpIx, 2 ≤ k.val →
        (s.pump k).state ≠ .priming ∧ (s.pump k).state ≠ .rampUp ∧ (s.pump k).state ≠ .running)

/-! ### Cables (R145, R146) -/

/-- A cable's error counters never exceed 255 and are 0 whenever it is UNLOCKED (R145). -/
def CableState.sound (x : CableState) : Prop :=
  x.parityCount ≤ 255 ∧ x.checkCount ≤ 255 ∧ (x.locked = false → x.parityCount = 0 ∧ x.checkCount = 0)

/-- Both cables are sound. -/
def State.cablesSound (s : State) : Prop := s.line.a.sound ∧ s.line.b.sound

/-! ### Window, quota and silence (R39, R43, R46, R63) -/

/-- The pending start is none outside CONTENDING and WON, and the counts of the arbiter and the allocation unit are in their
ranges (R43, R46, R63). -/
def State.arbiterSound (s : State) : Prop :=
  (s.arb.part = .out ∨ s.arb.part = .withdrawn → s.arb.pendingStart = none) ∧ s.arb.freeWindows ≤ 255 ∧
    1 ≤ s.arb.threshold ∧ s.arb.threshold ≤ 5 ∧ s.alloc.heldAge ≤ 255 ∧
    (s.alloc.heldQuota = none → 240 ≤ s.alloc.heldAge)

/-- A station in SILENT has nothing to send: no announcement handed over, no frame under way, no arbitration word (R39). -/
def State.silenceHolds (s : State) : Prop :=
  s.timer.mode = .silent → s.line.handed = none ∧ s.line.tx = none ∧ s.arb.part ≠ .contending

/-! ### What follows every event (R63, R69, R122, R135) -/

/-- The sampling mode is CONTINUOUS exactly under the conditions of R135. -/
def State.samplingFits (s : State) : Prop :=
  s.gauge.sampling = .continuous ↔
    (∃ k, s.pumpActive k) ∨ s.gauge.sumpA.low = true ∨ s.gauge.sumpB.low = true ∨ s.gauge.polder.heldClass = none ∨
      ∃ c, s.gauge.polder.heldClass = some c ∧ 2 ≤ c.val

/-- A station that contends has a pending start, and a valid one (R69). -/
def State.contenderIsValid (s : State) : Prop :=
  s.arb.part = .contending → ∃ k, s.arb.pendingStart = some k ∧ s.startIsValid k

/-- The sampling mode and the watch of a start have followed; and before the blocks run, the polder class is unknown and no start
is in contention, as a reset leaves them (R63, R122). -/
def State.followed (s : State) : Prop :=
  s.samplingFits ∧ s.contenderIsValid ∧
    (s.cond ≠ .running → s.gauge.polder.heldClass = none ∧ s.arb.part ≠ .contending)

end Sys2Proof.Machine
end

