-- ==== Sys2Proof/WellFormed.lean ====
section
/-! DEFINITION. When a command is well formed: its operands are ones that
the event or command it names can carry. -/

namespace Sys2Proof

/-- A row UNKNOWN is well formed when its character names no command (R168); a WARM_RESET when RESET was low for at least
100 µs (R161). Every other operand is in range by its type or is judged by the command's own rule. -/
def WellFormed : Instr → Bool
  | .unknown c => (parameterCount c).isNone
  | .warmReset low => decide (100 ≤ low)
  | _ => true

end Sys2Proof
end

