-- ==== Sys2Proof/Certificates/Slice0/Obligations.lean ====
section
/-! DEFINITION. The statements for the provers, block by block. -/

open Sys2Proof Sys2Proof.Machine

/-! ### The step and its queue -/

/-- The command at the front of the queue runs on the state with the queue's rest (log 1). -/
def Obligations.StepRunsTheFrontCommand : Prop :=
  ∀ (c : Instr) (s : State) (rest : List Instr),
    s.pending = c :: rest → step s = exec c { s with pending := rest }

/-- On an empty queue an event that is due is put in the queue, and where none is due one microsecond passes (log 2, log 3). One
microsecond in a running part: the phase, the age of a held realignment, the ages of the schedules that realignments replaced
(kept for 336 µs, R30), the window, the frames under way and their ages, the ages of the cable check and the time in a counting
window run on, every running timer, step time and pulse runs down by one, the output time base runs on by a number of counts that
the spec leaves open, one position for all four references (log 10, log 46), and everything else stands; as a bit cell of the
window or a character of an own frame begins, the cable active then is the one of its comparison (R150, log 23); in the strap
reading the reading alone runs down, and nothing runs in a reset or in STRAP FAULT (R80, R111, R159, R162, log 2). The events due
in a running part are those of the round's schedule at their instants, those of the window from their elapsed times on, the end of
an own frame that has come back whole (log 43), the arrival of a complete frame 16 µs after its last stop bit's middle, the
truncation of a frame once no further character of it begun in time can come, the ends of the check's times, and the expiries of
the pumps' timers and step times (R23, R24, R40, R64, R80, R86, R111, R142, R154, R155, log 26, log 29, log 47); the strap reading
is complete after its 8.0 ms (R158); the events that the outside alone times are never due (log 26). -/
def Obligations.EmptyQueueRaisesDueEventsOrPassesTime : Prop :=
  (∀ s : State, s.pending = [] →
     (due s = [] → step s = .next (advance s)) ∧
     (due s ≠ [] → ∃ c ∈ due s, step s = .next { s with pending := [c], free := s.free + 1 })) ∧
  (∀ s : State,
     (s.cond = .running →
       (advance s).timer =
         { s.timer with phase := s.timer.phase + 1
                        held := s.timer.held.map (fun h => { h with edgeAge := h.edgeAge + 1 })
                        replaced := (s.timer.replaced.filter (fun r => decide (r.age < 336))).map
                          (fun r => { r with age := r.age + 1 }) } ∧
       (advance s).arb = { s.arb with window := (advance s).arb.window } ∧
       (s.arb.window = none → (advance s).arb.window = none) ∧
       (∀ w, s.arb.window = some w → (advance s).arb.window = some
         { w with elapsed := w.elapsed + 1
                  cables := if (w.elapsed + 1) % 1000 = 0 ∧ w.elapsed + 1 < 7000 then w.cables ++ [s.line.active]
                            else w.cables }) ∧
       (∀ x, s.line.tx = some x → (advance s).line.tx = some
         { x with elapsed := x.elapsed + 1
                  cables := if (x.elapsed + 1) % 352 = 0 ∧ x.elapsed + 1 < 352 * x.chars.length
                            then x.cables ++ [s.line.active] else x.cables }) ∧
       (s.line.tx = none → (advance s).line.tx = none) ∧
       (∀ c, (advance s).line.cable c =
         { s.line.cable c with
           assembly := (s.line.cable c).assembly.map
             (fun f => { f with edgeAge := f.edgeAge + 1, sinceChar := f.sinceChar + 1 }) }) ∧
       (advance s).line.check =
         { s.line.check with
           opened := s.line.check.opened.map (fun o => { o with age := o.age + 1 })
           arrivals := (s.line.check.arrivals.filter (fun r => decide (r.age < 1000))).map
             (fun r => { r with age := r.age + 1 })
           pulse := s.line.check.pulse.map (· - 1) } ∧
       (advance s).line.active = s.line.active ∧ (advance s).line.handed = s.line.handed ∧
       (advance s).line.windowHold = s.line.windowHold ∧
       (advance s).gauge =
         { s.gauge with
           polder := { s.gauge.polder with scan := s.gauge.polder.scan.map (fun c => { c with windowTime := c.windowTime + 1 }) }
           outfall :=
             { s.gauge.outfall with scan := s.gauge.outfall.scan.map (fun c => { c with windowTime := c.windowTime + 1 }) } } ∧
       (∃ counts, (advance s).drives = runDrives counts s) ∧
       (∀ k : PumpIx, (advance s).pump k =
         { s.pump k with primeTimer := (s.pump k).primeTimer.map (· - 1), feedbackTimer := (s.pump k).feedbackTimer.map (· - 1),
                         minRunTimer := (s.pump k).minRunTimer.map (· - 1), restTimer := (s.pump k).restTimer.map (· - 1),
                         secondTimer := (s.pump k).secondTimer.map (· - 1) }) ∧
       (∀ k : PumpIx, (advance s).player k = { s.player k with timeLeft := (s.player k).timeLeft.map (· - 1) }) ∧
       advance s =
         { s with timer := (advance s).timer, arb := (advance s).arb, line := (advance s).line, pumps := (advance s).pumps
                  players := (advance s).players, drives := (advance s).drives, gauge := (advance s).gauge
                  free := s.free + 1 }) ∧
     (s.cond = .strapReading → advance s = { s with strapTime := s.strapTime - 1, free := s.free + 1 }) ∧
     (s.cond = .strapFault ∨ (∃ κ, s.cond = .reset κ) → advance s = { s with free := s.free + 1 })) ∧
  (∀ s : State,
     (s.cond = .strapFault ∨ (∃ κ, s.cond = .reset κ) → due s = []) ∧
     (s.cond = .strapReading → due s = if s.strapTime = 0 then [.strapReadingComplete s.strapPins] else []) ∧
     (s.cond = .running →
       let phase := s.timer.phase
       let slot := 28000 * s.own.val
       (∀ inp, .roundEnd inp ∈ due s ↔ inp = s.inputs ∧ 500000 ≤ phase) ∧
       (.settlePoint ∈ due s ↔ phase = 448000 ∧ s.timer.settleTaken = false) ∧
       (.windowOpening ∈ due s ↔ phase = 448000 ∧ s.timer.settleTaken = true ∧ s.timer.windowTaken = false) ∧
       (∀ inp, .ownSlotStart inp ∈ due s ↔
         inp = s.inputs ∧ s.timer.announceTaken = false ∧ slot ≤ phase ∧ phase ≤ slot + 1000 ∧
           ((s.timer.mode = .joining ∧ s.timer.aligned = true) ∨ s.timer.mode = .member ∨ s.timer.mode = .isolated)) ∧
       (.announcementTransmitBegin ∈ due s ↔ s.line.handed.isSome = true ∧ phase = slot + 1000) ∧
       (.lastBitEnd ∈ due s ↔ ∃ w, s.arb.window = some w ∧ 7000 ≤ w.elapsed ∧ s.line.windowHold = true) ∧
       (∀ inp, .confirmationBegin inp ∈ due s ↔
         inp = s.inputs ∧ s.line.tx = none ∧ s.arb.confirmClean = false ∧
           ∃ w, s.arb.window = some w ∧ 10000 ≤ w.elapsed ∧ w.holding = true) ∧
       (∀ inp, .startTakenOrDropped inp ∈ due s ↔ inp = s.inputs ∧ s.arb.confirmClean = true) ∧
       (.windowEnd ∈ due s ↔ ∃ w, s.arb.window = some w ∧ 32000 ≤ w.elapsed) ∧
       (.transmissionEnd ∈ due s ↔
         ∃ x, s.line.tx = some x ∧ x.returned = x.chars.length ∧ 352 * x.chars.length ≤ x.elapsed) ∧
       (∀ c inp, .frameArrival c inp ∈ due s ↔
         inp = s.inputs ∧ ∃ f, (s.line.cable c).assembly = some f ∧ f.kind.length ≤ f.chars.length ∧ 16 ≤ f.sinceChar) ∧
       (∀ c, .frameTruncated c ∈ due s ↔
         ∃ f, (s.line.cable c).assembly = some f ∧ f.chars.length < f.kind.length ∧ 704 < f.sinceChar) ∧
       (.checkComparisonTimeout ∈ due s ↔ ∃ o rest, s.line.check.opened = o :: rest ∧ 1000 ≤ o.age) ∧
       (.checkPulseEnd ∈ due s ↔ s.line.check.pulse = some 0) ∧
       (∀ k : PumpIx,
         (.primeSenseAsserted k ∈ due s ↔ (s.pump k).state = .priming ∧ s.inputs.primeSense.getLsbD k = true) ∧
         (.primeTimerExpiry k ∈ due s ↔ (s.pump k).primeTimer = some 0) ∧
         (∀ b, .feedbackDueExpiry k b ∈ due s ↔ b = s.inputs.runFb.getLsbD k ∧ (s.pump k).feedbackTimer = some 0) ∧
         (.minimumRunExpiry k ∈ due s ↔ (s.pump k).minRunTimer = some 0) ∧
         (.restTimerExpiry k ∈ due s ↔ (s.pump k).restTimer = some 0) ∧
         (.runSecond k ∈ due s ↔ (s.pump k).secondTimer = some 0) ∧
         (.stepCompletion k ∈ due s ↔
           (s.player k).playing = true ∧ (s.player k).step.isSome = true ∧ (s.player k).timeLeft = some 0)) ∧
       (∀ c ∈ due s, c.serviceCode = none ∧ c ≠ .coldReset ∧ c ≠ .resetEnd ∧ c ≠ .transactionBegin ∧ c ≠ .transactionEnd ∧
         c ≠ .windowDrivenLevel ∧ (∀ n, c ≠ .warmReset n) ∧ (∀ l, c ≠ .strapReadingComplete l) ∧
         (∀ d, c ≠ .arbitrationBitReading d) ∧ (∀ x y inp, c ≠ .characterReadBack x y inp) ∧
         (∀ inp, c ≠ .foreignEdgeOnFrame inp) ∧ (∀ x r, c ≠ .characterComplete x r) ∧
         (∀ x, c ≠ .decoderInputReleased x) ∧ (∀ g p r, c ≠ .countingWindowEnd g p r))))

/-- Every command completes in every state, and leaves the queue to the step: no command faults or is refused. -/
def Obligations.EveryCommandCompletesAndKeepsTheQueue : Prop :=
  ∀ (c : Instr) (s : State), ∃ t, exec c s = .next t ∧ t.pending = s.pending

/-! ### Resets and straps (chapter 9) -/

/-- COLD_RESET: the defaults are loaded, every block stands at its chapter's values after reset, and every output is off or
released (R160, R106, R107, R162 and the reset values of R1, R5, R20, R25, R43, R63, R81, R109, R122, R145, R146, R153, R172 and
R174). That the pumps are ABSENT and the strap levels 0 before the straps are read is log 7, and the output time base at its
begin, one for all four references, is log 10 and log 46. WARM_RESET: it is taken from 100 µs on outside a cold reset; it keeps
the profile memory, the pointer table and the run minutes, and leaves everything else as a cold reset does (R161). -/
def Obligations.ResetsLoadDefaultsOrKeepProfiles : Prop :=
  (∀ s : State, ∃ t, exec .coldReset s = .next t ∧ t.cond = .reset .cold ∧
     (List.range 6).map (fun i => t.profile[i]?) =
       [some ⟨20, 10, false⟩, some ⟨35, 10, false⟩, some ⟨50, 10, false⟩, some ⟨65, 10, false⟩, some ⟨80, 10, false⟩,
         some ⟨100, 10, true⟩] ∧
     (List.range 4).map (fun i => t.profile[16 + i]?) =
       [some ⟨100, 255, false⟩, some ⟨85, 50, false⟩, some ⟨100, 255, false⟩, some ⟨100, 255, true⟩] ∧
     (List.range 4).map (fun i => t.profile[32 + i]?) =
       [some ⟨70, 10, false⟩, some ⟨45, 10, false⟩, some ⟨25, 10, false⟩, some ⟨0, 10, true⟩] ∧
     (∀ i : Fin 64, (6 ≤ i.val ∧ i.val < 16) ∨ (20 ≤ i.val ∧ i.val < 32) ∨ 36 ≤ i.val → t.profile[i] = ⟨0, 1, false⟩) ∧
     (∀ k : PumpIx, t.pointers[k] = { up := 0, run := none, down := 32, rate := 1 }) ∧
     (∀ k : PumpIx, t.pump k =
       { state := .absent, cause := none, holdPending := false, finishing := false, primeTimer := none, feedbackTimer := none,
         supervised := false, missCount := 0, minRunTimer := none, pastMinRun := false, restTimer := none, runMinutes := 0,
         accumulator := 0, secondTimer := none }) ∧
     (∀ k : PumpIx, t.player k =
       { playing := false, mode := none, start := none, step := none, tick := none, timeLeft := none, runaway := 0,
         finish := false, speed := 0 }) ∧
     (∀ k : Station, t.table.entries[k] =
       { status := .empty, age := 255, fields := none, startSeen := none, lastCount := none }) ∧
     t.table.ownStartSeen = none ∧ t.table.candidate = 0 ∧ t.table.accepted = 0 ∧ t.table.queue = [] ∧
     t.table.overrun = false ∧
     t.timer =
       { phase := 0, count := 0, mode := .joining, aligned := false, reference := none, joiningCount := 0, unheardCount := 0,
         readBackCount := 0, realignCount := 0, roundMarked := false, failedInRound := false, settleTaken := false,
         windowTaken := false, announceTaken := false, held := none, replaced := [] } ∧
     t.alloc =
       { heldQuota := none, heldAge := 240, qd := 0, entitlement := 0, demand := 0, target := 0, startWanted := none,
         shedSinceSettle := false } ∧
     t.arb =
       { freeWindows := 0, lastResult := .none, threshold := 4, part := .out, pendingStart := none, record := none,
         window := none, confirmClean := false } ∧
     (∀ p : Fin 6, t.gauge.probes[p] =
       { lastCode := none, counts := none, hop := 0, overflow := false, unsteady := false }) ∧
     (∀ g : ProbeGroup, t.gauge.group g =
       { hop := 0, level := none, disagree := false, heldClass := none, lastRising := none, lastFalling := none,
         scan := none }) ∧
     t.gauge.flood = false ∧ t.gauge.floodCount = 0 ∧ t.gauge.sumpA = { low := false, run := 0 } ∧
     t.gauge.sumpB = { low := false, run := 0 } ∧ t.gauge.sampling = .continuous ∧ t.gauge.waitCount = 0 ∧
     (∀ c : Cable, t.line.cable c =
       { locked := false, frameMark := false, frameRounds := 0, silentRounds := 0, parityCount := 0, checkCount := 0,
         decoder := .seeking, assembly := none }) ∧
     t.line.active = .a ∧ t.line.handed = none ∧ t.line.tx = none ∧ t.line.windowHold = false ∧
     t.line.check =
       { running := false, armed := false, roundsLeft := 0, errored := 0, result := .none, roundErrored := false,
         opened := [], arrivals := [], pulse := none } ∧
     (∀ k : PumpIx, t.drives.duty[k] = 0) ∧ t.drives.position = 0 ∧ t.straps = ⟨0, 0, 0, 0, 0, 0, 0, 0⟩ ∧
     t.port = { selected := false, answer := none, flags := 0, mask := 0b111111 } ∧
     (∀ k : PumpIx, t.driveOn k = false ∧ t.valveOpen k = false) ∧ t.lineDriven = false ∧ t.hopP = 0 ∧ t.hopO = 0 ∧
     t.checkLow = false ∧ t.attnLow = false ∧ t.inputs = s.inputs ∧ t.strapPins = s.strapPins ∧ t.pending = s.pending) ∧
  (∀ (low : Nat) (s : State),
     (low < 100 → exec (.warmReset low) s = .next s) ∧
     (s.cond = .reset .cold → exec (.warmReset low) s = .next s) ∧
     (100 ≤ low → s.cond ≠ .reset .cold → ∃ t u, exec (.warmReset low) s = .next t ∧ exec .coldReset s = .next u ∧
       t = { u with cond := .reset .warm, profile := s.profile, pointers := s.pointers, pumps := t.pumps } ∧
       ∀ k : PumpIx, t.pump k = { u.pump k with runMinutes := (s.pump k).runMinutes }))

/-- RESET_END and STRAP_READING_COMPLETE in a strap fault: the reading of 8.0 ms begins, and a fault of STN_HI or ROLE puts
the part in STRAP FAULT with the levels kept, ATTN low, and everything else as it stood (R158, R159).
STRAP_READING_COMPLETE without fault: every block runs from where the reset left it, the fitted pumps are IDLE and the
others ABSENT, and each group that is scanned begins a scan (R81, R121, R122, R157, R163). -/
def Obligations.StrapReadingEndsInStrapFaultOrBeginsEveryBlock : Prop :=
  ((∀ (κ : ResetKind) (s : State), s.cond = .reset κ →
     exec .resetEnd s = .next { s with cond := .strapReading, strapTime := 8000 }) ∧
   (∀ (l : StrapLevels) (s : State), s.cond = .strapReading → 2 ≤ l.stnHi.val ∨ 5 ≤ l.role.val →
     ∃ t, exec (.strapReadingComplete l) s = .next t ∧
       t = { s with cond := .strapFault, strapTime := 0, straps := l, strapPins := l } ∧ t.attnLow = true ∧
       t.lineDriven = false ∧ ∀ k : PumpIx, t.driveOn k = false ∧ t.valveOpen k = false)) ∧
  (∀ (l : StrapLevels) (s : State), s.cond = .strapReading → l.stnHi.val < 2 → l.role.val < 5 →
     ∃ t, exec (.strapReadingComplete l) s = .next t ∧ t.cond = .running ∧ t.straps = l ∧
       t.own.val = 8 * l.stnHi.val + l.stnLo.val ∧ t.rating = l.rating.val + 1 ∧ t.islandShare = l.island.val ∧
       (∀ k : PumpIx, t.pump k =
         { s.pump k with state := if k.val < l.pumps.val % 4 + 1 then .idle else .absent }) ∧
       (s.gauge.polder.scan = none →
         t.gauge.polder = { s.gauge.polder with scan := some { probe := 0, first := none, tried := 0, windowTime := 0 } }) ∧
       (s.gauge.outfall.scan = none → 1 ≤ l.role.val →
         t.gauge.outfall = { s.gauge.outfall with scan := some { probe := 4, first := none, tried := 0, windowTime := 0 } }) ∧
       (l.role.val = 0 → t.gauge.outfall = s.gauge.outfall) ∧
       t.gauge = { s.gauge with polder := t.gauge.polder, outfall := t.gauge.outfall } ∧
       t = { s with cond := .running, strapTime := 0, straps := l, strapPins := l, pumps := t.pumps, gauge := t.gauge } ∧
       (t.entry t.own).status = .fresh ∧ (t.entry t.own).age = 0)

/-! ### What follows an event at once -/

/-- What `follow` makes of a state (R69, R135, R136): the mode is CONTINUOUS exactly under R135's conditions; a change sets the
wait count to 0, and a change to CONTINUOUS begins the scans; a contending station whose start is not valid withdraws; nothing else
changes, and a second `follow` changes nothing. Every step leaves what it found so: where the sampling mode stands as R135 gives it
and a contending station's start is valid, and the blocks that do not run stand with the polder class unknown and no start in
contention, all this holds after the step too, whatever the command (R63, R69, R122, R135). -/
def Obligations.SamplingModeAndWithdrawalFollowEveryEvent : Prop :=
  (∀ s : State,
    ((follow s).gauge.sampling = .continuous ↔
      (∃ k, s.pumpActive k) ∨ s.gauge.sumpA.low = true ∨ s.gauge.sumpB.low = true ∨ s.gauge.polder.heldClass = none ∨
        ∃ c, s.gauge.polder.heldClass = some c ∧ 2 ≤ c.val) ∧
    (follow s).gauge.waitCount = (if (follow s).gauge.sampling = s.gauge.sampling then s.gauge.waitCount else 0) ∧
    (s.gauge.sampling = .periodic → (follow s).gauge.sampling = .continuous → s.gauge.polder.scan = none →
      (follow s).gauge.polder.scan = some { probe := 0, first := none, tried := 0, windowTime := 0 }) ∧
    (s.gauge.sampling = .periodic → (follow s).gauge.sampling = .continuous → s.gauge.outfall.scan = none →
      (follow s).gauge.outfall.scan =
        if 1 ≤ s.straps.role.val ∧ s.straps.role.val ≤ 4 then some { probe := 4, first := none, tried := 0, windowTime := 0 }
        else none) ∧
    (¬ (s.gauge.sampling = .periodic ∧ (follow s).gauge.sampling = .continuous) →
      (follow s).gauge.polder = s.gauge.polder ∧ (follow s).gauge.outfall = s.gauge.outfall) ∧
    (∀ c, s.gauge.polder.scan = some c → (follow s).gauge.polder = s.gauge.polder) ∧
    (∀ c, s.gauge.outfall.scan = some c → (follow s).gauge.outfall = s.gauge.outfall) ∧
    (s.arb.part = .contending → (¬ ∃ k, s.arb.pendingStart = some k ∧ s.startIsValid k) →
      (follow s).arb = { s.arb with part := .withdrawn, pendingStart := none }) ∧
    (s.arb.part ≠ .contending ∨ (∃ k, s.arb.pendingStart = some k ∧ s.startIsValid k) → (follow s).arb = s.arb) ∧
    follow s =
      { s with
        arb := (follow s).arb
        gauge := { s.gauge with
          sampling := (follow s).gauge.sampling, waitCount := (follow s).gauge.waitCount
          polder := { s.gauge.polder with scan := (follow s).gauge.polder.scan }
          outfall := { s.gauge.outfall with scan := (follow s).gauge.outfall.scan } } } ∧
    follow (follow s) = follow s) ∧
  (∀ s t : State, s.followed → step s = .next t → t.followed)

/-! ### The round end (ROUND_END) -/

/-- ROUND_END returns the phase to 0, advances the count and opens a new round, chooses the reference anew, and ages every entry
but the own and the EMPTY ones (R2, R13, R24, R26). ROUND_END forms the raw district flag set from the own inputs and the aged
FRESH and STALE entries, accepts it where it equals the candidate and differs from the accepted set, and pushes a change record
then (R16, R17, R20). In PERIODIC the wait count gains 1 at a ROUND_END, and at 16 each group that is scanned and not scanning
begins a scan and the count returns to 0; in CONTINUOUS the gauge unit stands; a change of the sampling mode by the round end's
own work sets the count to 0 as R136 says, where a free value says whether a round end that brings the change to PERIODIC counts
as well (R121, R135, R136, log 9). The arbiter stands, but that a contending station whose start is no longer valid withdraws
(R69, R77). -/
def Obligations.RoundEndAgesTheTableAndFormsTheFlagSets : Prop :=
  (∀ (inp : Inputs) (s : State), s.cond = .running → ∃ t, exec (.roundEnd inp) s = .next t ∧
     t.timer.phase = 0 ∧ t.timer.count = s.timer.count + 1 ∧ t.timer.settleTaken = false ∧ t.timer.windowTaken = false ∧
     t.timer.announceTaken = false ∧ t.timer.roundMarked = false ∧ t.timer.failedInRound = false ∧ t.referenceChosen ∧
     t.timer.realignCount = s.timer.realignCount ∧ t.timer.held = s.timer.held ∧
     t.timer.replaced = s.timer.replaced ∧
     (∀ k : Station,
       ((s.table.entries[k]).status = .empty → t.table.entries[k] = s.table.entries[k]) ∧
       ((s.table.entries[k]).status ≠ .empty →
         let age := min 255 ((s.table.entries[k]).age + 1)
         t.table.entries[k] =
           { s.table.entries[k] with
             age := age, status := if age ≤ 1 then .fresh else if age ≤ 7 then .stale else .lost })) ∧
     t.table.ownStartSeen = s.table.ownStartSeen ∧
     (s.arb.part ≠ .contending ∨ (∃ k, s.arb.pendingStart = some k ∧ t.startIsValid k) → t.arb = s.arb) ∧
     (s.arb.part = .contending → (¬ ∃ k, s.arb.pendingStart = some k ∧ t.startIsValid k) →
       t.arb = { s.arb with part := .withdrawn, pendingStart := none }) ∧
     t = { s with inputs := inp, table := t.table, timer := t.timer, arb := t.arb, pumps := t.pumps, players := t.players,
                  drives := t.drives, gauge := t.gauge, line := t.line, port := t.port, free := t.free }) ∧
  (∀ (inp : Inputs) (s : State), s.cond = .running → ∃ t, exec (.roundEnd inp) s = .next t ∧
     ∃ raw : FlagSet,
       (∀ i : Fin 4, raw.getLsbD i = true ↔
         inp.flags.getLsbD i = true ∨ ∃ k f, t.heardFields k f ∧ f.flags.getLsbD i = true) ∧
       t.table.candidate = raw ∧
       (raw = s.table.candidate ∧ raw ≠ s.table.accepted →
         t.table.accepted = raw ∧ t.port.flags.getLsbD 0 = true ∧
         t.table.queue = (match s.table.queue with
           | [] => [⟨raw, s.timer.count⟩]
           | first :: _ => [first, ⟨raw, s.timer.count⟩]) ∧
         t.table.overrun = (s.table.overrun || decide (2 ≤ s.table.queue.length))) ∧
       (¬ (raw = s.table.candidate ∧ raw ≠ s.table.accepted) →
         t.table.accepted = s.table.accepted ∧ t.table.queue = s.table.queue ∧ t.table.overrun = s.table.overrun ∧
         t.port.flags.getLsbD 0 = s.port.flags.getLsbD 0)) ∧
  (∀ (inp : Inputs) (s : State), s.cond = .running → ∃ t, exec (.roundEnd inp) s = .next t ∧
     let begun := fun (probe : Fin 6) (g : GaugeGroup) =>
       if g.scan.isSome = true then g else { g with scan := some { probe := probe, first := none, tried := 0, windowTime := 0 } }
     let polder := begun 0 s.gauge.polder
     let outfall := if 1 ≤ s.straps.role.val ∧ s.straps.role.val ≤ 4 then begun 4 s.gauge.outfall else s.gauge.outfall
     t.samplingFits ∧
     (s.gauge.sampling = .periodic → t.gauge.sampling = .periodic → s.gauge.waitCount < 15 →
       t.gauge = { s.gauge with waitCount := s.gauge.waitCount + 1 }) ∧
     (s.gauge.sampling = .periodic → t.gauge.sampling = .periodic → 15 ≤ s.gauge.waitCount →
       t.gauge = { s.gauge with waitCount := 0, polder := polder, outfall := outfall }) ∧
     (s.gauge.sampling = .periodic → t.gauge.sampling = .continuous →
       t.gauge = { s.gauge with sampling := .continuous, waitCount := 0, polder := polder, outfall := outfall }) ∧
     (s.gauge.sampling = .continuous → t.gauge.sampling = .continuous → t.gauge = s.gauge) ∧
     (s.gauge.sampling = .continuous → t.gauge.sampling = .periodic →
       t.gauge = { s.gauge with sampling := .periodic, waitCount := 0 } ∨
         t.gauge = { s.gauge with sampling := .periodic, waitCount := 1 }))

/-- ROUND_END reads the run feedback of the supervised pumps, and where F1 DISTRICT STOP enters the accepted set every active
pump is stopped urgently (R19, R82, R93, R94). Where the stop meets a second missed feedback, the pump ends RESTING or
FAULTED: either order is allowed (R94, log 8). A whole second of the run complete at that instant counts (R99). -/
def Obligations.RoundEndStopsPumpsAtF1AndSupervisesFeedback : Prop :=
  ∀ (inp : Inputs) (s : State), s.cond = .running → ∃ t, exec (.roundEnd inp) s = .next t ∧
    ∀ k : PumpIx,
      let enters := t.table.accepted.getLsbD 1 = true ∧ s.table.accepted.getLsbD 1 = false
      let read := (s.pump k).supervised = true ∧ ((s.pump k).state = .rampUp ∨ (s.pump k).state = .running)
      (¬ (enters ∧ s.pumpActive k) → ¬ read → t.pump k = s.pump k ∧ t.player k = s.player k) ∧
      (¬ (enters ∧ s.pumpActive k) → read → inp.runFb.getLsbD k = true → t.pump k = { s.pump k with missCount := 0 }) ∧
      (¬ (enters ∧ s.pumpActive k) → read → inp.runFb.getLsbD k = false → (s.pump k).missCount = 0 →
        t.pump k = { s.pump k with missCount := 1 } ∧ t.player k = s.player k) ∧
      (¬ (enters ∧ s.pumpActive k) → read → inp.runFb.getLsbD k = false → 1 ≤ (s.pump k).missCount →
        (t.pump k).state = .faulted ∧ (t.pump k).cause = some .runLost ∧ (t.pump k).finishing = false ∧
        (t.pump k).holdPending = (s.pump k).holdPending ∧ (t.player k).speed = 0 ∧ (t.player k).playing = false ∧
        t.drives.duty[k] = 0 ∧ t.port.flags.getLsbD 1 = true) ∧
      (enters → s.pumpActive k →
        ¬ (read ∧ inp.runFb.getLsbD k = false ∧ 1 ≤ (s.pump k).missCount) →
        (t.pump k).state = .resting ∧ (t.pump k).restTimer = some 120000000 ∧ (t.pump k).primeTimer = none ∧
        (t.pump k).finishing = false ∧ (t.pump k).holdPending = (s.pump k).holdPending ∧ (t.player k).speed = 0 ∧
        (t.player k).playing = false ∧ t.drives.duty[k] = 0) ∧
      (enters → s.pumpActive k → (t.pump k).state = .resting ∨ (t.pump k).state = .faulted) ∧
      ((t.pump k).state ≠ (s.pump k).state → (s.pump k).keepsWork (t.pump k))

/-- ROUND_END drives the mode machine: two rounds with an accepted frame make a JOINING station MEMBER, eight without make a
JOINING or MEMBER station ISOLATED, and each change of mode sets MODE CHANGE (R32, R34, R36, R38, R39). That the joining count of
a SILENT station stands is the model's choice between R34 and R39 (log 31). -/
def Obligations.RoundEndCountsRoundsAndChangesTheMode : Prop :=
  ∀ (inp : Inputs) (s : State), s.cond = .running → ∃ t, exec (.roundEnd inp) s = .next t ∧
    (s.timer.mode = .joining → s.timer.roundMarked = true → 1 ≤ s.timer.joiningCount →
      t.timer.mode = .member ∧ t.timer.joiningCount = 0 ∧ t.timer.unheardCount = 0) ∧
    (s.timer.mode = .joining → s.timer.roundMarked = true → s.timer.joiningCount = 0 →
      t.timer.mode = .joining ∧ t.timer.joiningCount = 1 ∧ t.timer.unheardCount = 0) ∧
    (s.timer.mode = .member → s.timer.roundMarked = true → t.timer.mode = .member ∧ t.timer.unheardCount = 0) ∧
    (s.timer.mode = .joining ∨ s.timer.mode = .member → s.timer.roundMarked = false → 7 ≤ s.timer.unheardCount →
      t.timer.mode = .isolated ∧ t.timer.joiningCount = 0 ∧ t.timer.unheardCount = 8) ∧
    (s.timer.mode = .joining → s.timer.roundMarked = false → s.timer.unheardCount < 7 →
      t.timer.mode = .joining ∧ t.timer.aligned = s.timer.aligned ∧ t.timer.joiningCount = 0 ∧
      t.timer.unheardCount = s.timer.unheardCount + 1) ∧
    (s.timer.mode = .member → s.timer.roundMarked = false → s.timer.unheardCount < 7 →
      t.timer.mode = .member ∧ t.timer.unheardCount = s.timer.unheardCount + 1) ∧
    (s.timer.mode = .isolated → t.timer.mode = .isolated ∧ t.timer.unheardCount = s.timer.unheardCount) ∧
    (s.timer.mode = .silent → t.timer.mode = .silent ∧ t.timer.unheardCount = s.timer.unheardCount ∧
      t.timer.joiningCount = s.timer.joiningCount ∧ t.timer.readBackCount = s.timer.readBackCount) ∧
    (s.timer.mode ≠ .silent →
      t.timer.readBackCount = if s.timer.failedInRound = true then s.timer.readBackCount else 0) ∧
    t.port.flags.getLsbD 5 = (s.port.flags.getLsbD 5 || decide (t.timer.mode ≠ s.timer.mode))

/-- ROUND_END steps the lock machine of each cable, and then gives way from an UNLOCKED active cable to a LOCKED standby with
CABLE SWITCH (R145, R146, R148). ROUND_END judges the ended round of a RUNNING cable check first: an errored round pulses CHECK
for 10 ms and counts, the rounds still to check lose 1, and at 0 the check ends with PASS or FAIL and CHECK DONE; short of that
the check stays RUNNING, the mark of the judged round is cleared, and open comparisons pass into the next round (R154, R155). The
first round end after START CHECK judges nothing and arms the check; a switch before the check has ended aborts it with CHECK
DONE; a STOPPED check stands (R155). Where the switch aborts the check, that its rounds still to check and its errored-round count
then stand as the judgement left them is the model's choice (log 17). -/
def Obligations.RoundEndStepsTheLockMachinesAndTheCheck : Prop :=
  (∀ (inp : Inputs) (s : State), s.cond = .running → ∃ t, exec (.roundEnd inp) s = .next t ∧
     (∀ c : Cable,
       let x := s.line.cable c
       let y := t.line.cable c
       (x.frameMark = true → x.locked = false →
         y = { x with frameMark := false, silentRounds := 0, frameRounds := min 2 (x.frameRounds + 1),
                      locked := decide (2 ≤ x.frameRounds + 1) }) ∧
       (x.frameMark = true → x.locked = true → y = { x with frameMark := false, silentRounds := 0, frameRounds := 2 }) ∧
       (x.frameMark = false → x.locked = true → x.silentRounds < 2 →
         y = { x with frameRounds := 0, silentRounds := x.silentRounds + 1 }) ∧
       (x.frameMark = false → x.locked = true → 2 ≤ x.silentRounds →
         y = { x with frameRounds := 0, silentRounds := 3, locked := false, parityCount := 0, checkCount := 0 }) ∧
       (x.frameMark = false → x.locked = false → y = { x with frameRounds := 0 })) ∧
     ((t.line.cable s.line.active).locked = false → (t.line.cable (otherCable s.line.active)).locked = true →
       t.line.active = otherCable s.line.active ∧ t.port.flags.getLsbD 3 = true) ∧
     (¬ ((t.line.cable s.line.active).locked = false ∧ (t.line.cable (otherCable s.line.active)).locked = true) →
       t.line.active = s.line.active ∧ t.port.flags.getLsbD 3 = s.port.flags.getLsbD 3) ∧
     t.line.handed = s.line.handed ∧ t.line.tx = s.line.tx ∧ t.line.windowHold = s.line.windowHold) ∧
  (∀ (inp : Inputs) (s : State), s.cond = .running → ∃ t, exec (.roundEnd inp) s = .next t ∧
     let k := s.line.check
     let switches := t.line.active ≠ s.line.active
     let judged : CableCheck :=
       { k with errored := if k.roundErrored = true then min 255 (k.errored + 1) else k.errored
                roundsLeft := k.roundsLeft - 1, roundErrored := false
                pulse := if k.roundErrored = true then some 10000 else k.pulse }
     let ended := fun (result : CheckResult) (x : CableCheck) =>
       { x with running := false, armed := false, result := result, roundErrored := false, opened := [], arrivals := [] }
     (k.running = false → t.line.check = k) ∧
     (k.running = true → k.armed = true → k.roundsLeft ≤ 1 →
       t.line.check = ended (if judged.errored = 0 then .pass else .fail) judged) ∧
     (k.running = true → k.armed = true → 2 ≤ k.roundsLeft →
       (¬ switches → t.line.check = judged) ∧ (switches → t.line.check = ended .aborted judged)) ∧
     (k.running = true → k.armed = false →
       (¬ switches → t.line.check = { k with armed := true, roundErrored := false }) ∧
       (switches → t.line.check = ended .aborted { k with armed := true, roundErrored := false })) ∧
     (t.port.flags.getLsbD 4 = true ↔
       s.port.flags.getLsbD 4 = true ∨ k.running = true ∧ (switches ∨ k.armed = true ∧ k.roundsLeft ≤ 1)))

/-! ### The settle point (SETTLE_POINT) -/

/-- SETTLE_POINT forms D, the base quota with the held quota and its age, Qd, E and T, once in a round (R42, R46, R47, R49,
R54). A settle point already taken in the round is not taken a second time (R24). -/
def Obligations.SettlePointFormsDemandQuotaAndTarget : Prop :=
  (∀ s : State, s.cond = .running → s.timer.settleTaken = false → ∃ t, exec .settlePoint s = .next t ∧
     t.alloc.demand = demandOf s.availableDischarge s.gauge.polder.heldClass ∧
     (∀ q, s.offerConsidered q → (∀ r, s.offerConsidered r → q ≤ r) →
       t.alloc.heldQuota = some q ∧ t.alloc.heldAge = 0 ∧
       t.alloc.qd = if s.table.accepted.getLsbD 0 then 0 else if s.table.accepted.getLsbD 3 then q / 2 else q) ∧
     ((∀ q, ¬ s.offerConsidered q) →
       t.alloc.heldQuota = s.alloc.heldQuota ∧ t.alloc.heldAge = min 255 (s.alloc.heldAge + 1) ∧
       (∀ base, (s.alloc.heldAge + 1 < 240 → s.alloc.heldQuota = some base) →
         (240 ≤ s.alloc.heldAge + 1 → base = 8 * s.straps.fallback.val) →
         t.alloc.qd =
           if s.table.accepted.getLsbD 0 then 0 else if s.table.accepted.getLsbD 3 then base / 2 else base)) ∧
     (s.timer.mode ≠ .member → t.alloc.entitlement = s.straps.island.val) ∧
     (s.timer.mode = .member → t.alloc.entitlement = s.ownGrant t.alloc.qd t.alloc.demand) ∧
     t.alloc.target = min t.alloc.entitlement t.alloc.demand ∧ t.timer = { s.timer with settleTaken := true } ∧
     t = follow { s with timer := t.timer, alloc := t.alloc, pumps := t.pumps, players := t.players, drives := t.drives }) ∧
  (∀ s : State, s.cond = .running → s.timer.settleTaken = true → exec .settlePoint s = .next (follow s))

/-- The division of Qd. Of any figures, the reservations and the grants of the keep and fill passes never sum to more than Qd, each
participant keeps no more than it has committed, and holds after the fill no more than the larger of its committed figure and its
demand (R50, R52, R53). In a running part a LOST entry reserves its committed figure, from age 248 on the smaller of it and its
island share, and every other entry and the own reserve nothing (R14); what is left of Qd after the reservations goes to the
participants in their order, first to each the smaller of its committed figure and the remainder, then to each the smaller of the
remainder and what its grant is short of its demand (R50 to R53); the own grant is the own entry's final grant, and 0 where it
takes no part (R53). -/
def Obligations.GrantsAndReservationsStayWithinTheQuota : Prop :=
  (∀ (qd : Nat) (ps : List Participant) (reservations : List Nat),
     let left := reservations.foldl (fun left r => left - min left r) qd
     let kept := keepPass left ps
     let filled := fillPass kept.2 kept.1
     (qd - left) + (filled.1.map Prod.snd).sum + filled.2 = qd ∧
     kept.1.map Prod.fst = ps ∧ filled.1.map Prod.fst = ps ∧
     (∀ g ∈ kept.1, g.2 ≤ g.1.committed) ∧ (∀ g ∈ filled.1, g.2 ≤ max g.1.committed g.1.demand) ∧
     (reservations.sum ≤ qd → left = qd - reservations.sum)) ∧
  (∀ (qd demand : Nat) (s : State), s.cond = .running →
     let reservation := fun (k : Station) =>
       match (s.table.entries[k]).fields with
       | none => 0
       | some f =>
         if k = s.own ∨ (s.table.entries[k]).status ≠ .lost then 0
         else if (s.table.entries[k]).age < 248 then f.committed
         else min f.committed f.island
     let remainder := qd - (([0, 1, 2, 3, 4, 5, 6, 7, 8, 9, 10, 11, 12, 13, 14, 15] : List Station).map reservation).sum
     let ps := s.participants demand
     let committed := ps.map Participant.committed
     let wanted := ps.map Participant.demand
     let kept := fun i => min (committed.getD i 0) (remainder - (committed.take i).sum)
     let short := fun i => wanted.getD i 0 - kept i
     let grant := fun i => kept i + min (short i) (remainder - committed.sum - ((List.range i).map short).sum)
     (∀ k, (s.entry k).reservation = reservation k) ∧ s.remainderAfterReservations qd = remainder ∧
     (s.grants qd demand).map Prod.fst = ps ∧ (s.grants qd demand).map Prod.snd = (List.range ps.length).map grant ∧
     (qd - remainder) + ((List.range ps.length).map grant).sum ≤ qd ∧
     (∀ i p, ps[i]? = some p → p.station = s.own → s.ownGrant qd demand = grant i) ∧
     ((∀ p ∈ ps, p.station ≠ s.own) → s.ownGrant qd demand = 0))

/-- The participants are the FRESH and STALE entries, the own among them, whose polder class is known, with their figures,
highest class first and then lowest station number (R51). -/
def Obligations.ParticipantsStandInClassOrder : Prop :=
  ∀ (s : State) (demand : Nat), s.cond = .running →
    (∀ p : Participant, p ∈ s.participants demand ↔ ∃ f c, (s.entry p.station).fields = some f ∧
      ((s.entry p.station).status = .fresh ∨ (s.entry p.station).status = .stale) ∧ f.polderClass = some c ∧
      p.committed = f.committed ∧ p.demand = if p.station = s.own then demand else f.demand) ∧
    (s.participants demand).Pairwise (fun p q =>
      ∃ f g c d, (s.entry p.station).fields = some f ∧ (s.entry q.station).fields = some g ∧ f.polderClass = some c ∧
        g.polderClass = some d ∧ (d < c ∨ (c = d ∧ p.station < q.station)))

/-- After SETTLE_POINT the committed discharge is within E. Where it was above, the smallest number of pumps that brings it there
is shed, the starting pump first and then the RUNNING pumps with the most run minutes, the highest index among equals; a shed pump
goes from PRIMING to RESTING and otherwise to RAMP_DOWN (R54, R56, R57). Where it was within E, no pump is shed, and a demand stop
goes to one pump exactly under the conditions of R58; a pump that plays no step enters RAMP_DOWN with it, which is the model's
choice between R59 and R84 (log 32). A whole second of a run complete as its pump leaves it counts (R99). The sampling mode and
the watch of a start follow at once (R69, R135). -/
def Obligations.SettlePointShedsUntilWithinTheLimit : Prop :=
  ∀ s : State, s.cond = .running → s.timer.settleTaken = false → ∃ t, exec .settlePoint s = .next t ∧
    let r := s.straps.rating.val + 1
    let starts := fun k => (s.pump k).state = .priming ∨ (s.pump k).state = .rampUp
    let stopsBefore := fun k j => (s.pump j).runMinutes < (s.pump k).runMinutes ∨
      ((s.pump j).runMinutes = (s.pump k).runMinutes ∧ j < k)
    let may := fun k => (s.pump k).state = .running ∧ (s.pump k).pastMinRun = true
    let chosen := fun k =>
      may k ∧ s.gauge.flood = false ∧ s.table.accepted.getLsbD 1 = false ∧
      t.alloc.demand + r ≤ s.committedDischarge ∧
      (∀ j, (s.pump j).state = .running → (s.pump j).finishing = false) ∧ ∀ j, j ≠ k → may j → stopsBefore k j
    t = follow { s with timer := t.timer, alloc := t.alloc, pumps := t.pumps, players := t.players, drives := t.drives } ∧
    t.committedDischarge ≤ t.alloc.entitlement ∧
    t.alloc.shedSinceSettle = decide (t.alloc.entitlement < s.committedDischarge) ∧
    (t.alloc.entitlement < s.committedDischarge → t.alloc.entitlement < t.committedDischarge + r) ∧
    (s.committedDischarge ≤ t.alloc.entitlement →
      (∀ k, t.pump k ≠ s.pump k → chosen k ∧ ∀ j, j ≠ k → t.pump j = s.pump j) ∧
      (∀ k, chosen k → (s.player k).playing = true →
        t.pump k = { s.pump k with finishing := true } ∧ t.player k = { s.player k with finish := true }) ∧
      (∀ k, chosen k → (s.player k).playing = false →
        (t.pump k).state = .rampDown ∧ (t.player k).start = some (s.pointers[k]).down ∧
        (t.player k).mode = some .oneShot ∧ (s.pump k).keepsWork (t.pump k))) ∧
    (∀ k, ¬ s.pumpCommitted k → t.pump k = s.pump k) ∧
    (t.alloc.entitlement < s.committedDischarge → ∀ k, s.pumpCommitted k →
      (t.pumpCommitted k → t.pump k = s.pump k ∧ t.player k = s.player k) ∧
      (¬ t.pumpCommitted k →
        ((s.pump k).state = .priming ∧ (t.pump k).state = .resting ∨
          (s.pump k).state ≠ .priming ∧ (t.pump k).state = .rampDown ∧
            (t.player k).start = some (s.pointers[k]).down ∧ (t.player k).mode = some .oneShot) ∧
        (s.pump k).keepsWork (t.pump k) ∧
        ∀ j, s.pumpCommitted j → t.pumpCommitted j → starts k ∨ (¬ starts j ∧ stopsBefore k j)))

/-- Start wanted after SETTLE_POINT names an IDLE pump over a sump that is not LOW, with the fewest run minutes and then the
lowest index, and stands only where every condition of R60 holds; where they hold it is set. -/
def Obligations.StartWantedNamesTheLeastWorkedIdlePump : Prop :=
  ∀ s : State, s.cond = .running → s.timer.settleTaken = false → ∃ t, exec .settlePoint s = .next t ∧
    let allowed := s.timer.mode = .member ∧ s.table.accepted.getLsbD 1 = false ∧ s.table.accepted.getLsbD 2 = false ∧
      t.alloc.shedSinceSettle = false ∧ (∀ k, (t.pump k).state ≠ .priming ∧ (t.pump k).state ≠ .rampUp) ∧
      t.committedDischarge + (s.straps.rating.val + 1) ≤ t.alloc.target
    let candidate := fun k => (t.pump k).state = .idle ∧ ¬ t.sumpIsLow k
    (∀ k, t.alloc.startWanted = some k →
      allowed ∧ candidate k ∧
      ∀ j, candidate j → j ≠ k →
        (t.pump k).runMinutes < (t.pump j).runMinutes ∨ ((t.pump k).runMinutes = (t.pump j).runMinutes ∧ k < j)) ∧
    (t.alloc.startWanted = none → ¬ (allowed ∧ ∃ k, candidate k))

/-! ### The start window (chapter 4) -/

/-- WINDOW_OPENING forms urgency and threshold, fixes the arbitration word and holds the decoders; the station contends exactly
where R67 lets it; the reading of the first bit cell is compared on the cable active now (R64 to R67, R144, R150, R178). That a
held decoder waits for release from the begin of its hold, and abandons a frame complete but not yet at its end, is log 20 and log
37. A second opening in a round opens nothing (R24, R64). -/
def Obligations.WindowOpeningContendsByThreshold : Prop :=
  (∀ s : State, s.cond = .running → s.timer.windowTaken = true → exec .windowOpening s = .next (follow s)) ∧
  ∀ s : State, s.cond = .running → s.timer.windowTaken = false → ∃ t, exec .windowOpening s = .next t ∧
    let urgency := if s.gauge.flood then 7 else (match s.gauge.polder.heldClass with | some c => c.val | none => 0)
    let threshold :=
      if s.gauge.flood then 1
      else if 5 ≤ urgency then (if s.arb.lastResult = .win then 3 else 2) else (if s.arb.lastResult = .win then 5 else 4)
    t.arb.threshold = threshold ∧
    (∃ w, t.arb.window = some w ∧ w.elapsed = 0 ∧ w.notFree = false ∧ w.bitsRead = 0 ∧ w.holding = false ∧
      w.word.toNat = 16 * (7 - urgency) + s.own.val ∧ w.cables = [s.line.active]) ∧
    (∀ k, s.alloc.startWanted = some k → s.startIsValid k → threshold ≤ s.arb.freeWindows →
      t.arb.part = .contending ∧ t.arb.pendingStart = some k) ∧
    (¬ (∃ k, s.alloc.startWanted = some k ∧ s.startIsValid k ∧ threshold ≤ s.arb.freeWindows) →
      t.arb.part = .out ∧ t.arb.pendingStart = none) ∧
    t.arb.lastResult = s.arb.lastResult ∧ t.arb.freeWindows = s.arb.freeWindows ∧ t.arb.record = s.arb.record ∧
    t.timer = { s.timer with windowTaken := true } ∧ t.line.windowHold = true ∧
    (∀ c, t.line.cable c = { s.line.cable c with decoder := .waitRelease, assembly := none }) ∧
    t.line.tx = s.line.tx ∧ t.line.handed = s.line.handed ∧ t.line.active = s.line.active ∧ t.line.check = s.line.check ∧
    t = follow { s with timer := t.timer, arb := t.arb, line := t.line }

/-- ARBITRATION_BIT_READING: a contending station that sent released and reads driven withdraws with LOSS, one that sent driven
and reads released withdraws and records nothing, and otherwise it goes on. It reads the cable that was active as the cell began;
a driven level of the cable active now makes the window not free (R68, R75, R150). Where the begin of the cell has not come by the
part's own time, the cable active now stands in its place (log 23). -/
def Obligations.ArbitrationReadingDecidesTheContention : Prop :=
  ∀ (levels : DrivenLevels) (s : State) (w : Window), s.cond = .running → s.arb.window = some w → s.line.windowHold = true →
    w.bitsRead < 7 → ∃ t, exec (.arbitrationBitReading levels) s = .next t ∧
      let level := fun (c : Cable) => match c with | .a => levels.onA | .b => levels.onB
      let driven := level ((w.cables[w.bitsRead]?).getD s.line.active)
      let sent := decide (w.word.toNat / 2 ^ (6 - w.bitsRead) % 2 = 1)
      t.arb.window = some { w with bitsRead := w.bitsRead + 1, notFree := w.notFree || level s.line.active } ∧
      (s.arb.part = .contending → sent = true → driven = true →
        t.arb.part = .withdrawn ∧ t.arb.pendingStart = none ∧ t.arb.lastResult = .loss) ∧
      (s.arb.part = .contending → sent = false → driven = false →
        t.arb.part = .withdrawn ∧ t.arb.pendingStart = none ∧ t.arb.lastResult = s.arb.lastResult) ∧
      (∀ k, s.arb.part = .contending → sent = !driven → s.arb.pendingStart = some k → s.startIsValid k →
        t.arb.part = .contending ∧ t.arb.pendingStart = some k ∧ t.arb.lastResult = s.arb.lastResult) ∧
      (s.arb.part ≠ .contending →
        t.arb.part = s.arb.part ∧ t.arb.pendingStart = s.arb.pendingStart ∧ t.arb.lastResult = s.arb.lastResult) ∧
      t = follow { s with arb := t.arb }

/-- WINDOW_DRIVEN_LEVEL and LAST_BIT_END: a driven level within the arbitration bits makes the window not free; a station
still contending at the end of the last bit has won, and holds a realignment from then on (R29, R70, R75, R144).
WINDOW_END judges the window: free counts it and a driven level or a confirmation sets the count to 0; start wanted is
cleared and the window part returns to OUT (R61, R75, R77). -/
def Obligations.WindowIsWonAtTheLastBitAndJudgedAtItsEnd : Prop :=
  (∀ (s : State) (w : Window), s.cond = .running → s.arb.window = some w → s.line.windowHold = true →
     exec .windowDrivenLevel s =
       .next (follow { s with arb := { s.arb with window := some { w with notFree := true } } }) ∧
     (s.arb.part = .contending →
       exec .lastBitEnd s =
         .next (follow
           { s with
             arb := { s.arb with part := .won, lastResult := .win, window := some { w with holding := true } }
             line := { s.line with windowHold := false } })) ∧
     (s.arb.part ≠ .contending →
       exec .lastBitEnd s = .next (follow { s with line := { s.line with windowHold := false } }))) ∧
  (∀ (s : State) (w : Window), s.cond = .running → s.arb.window = some w →
     exec .windowEnd s =
       .next (follow
         { s with
           arb := { s.arb with
             freeWindows := if w.notFree then 0 else min 255 (s.arb.freeWindows + 1), part := .out, pendingStart := none
             window := none, confirmClean := false }
           alloc := { s.alloc with startWanted := none }
           line := { s.line with windowHold := false } }))

/-- CONFIRMATION_BEGIN: a station in WON that is not SILENT sends the four characters of its confirmation, with their check, on
both cables, and its decoders are held (R71, R144, R150, R177, log 20, log 37). A station with nothing to send sends nothing, and
the hold of a realignment ends (R29); while a confirmation is under way or its start is still to be taken, nothing happens. -/
def Obligations.ConfirmationBeginSendsTheWinnersFrame : Prop :=
  (∀ (inp : Inputs) (s : State) (k : PumpIx), s.cond = .running → s.arb.part = .won → s.arb.pendingStart = some k →
     s.timer.mode ≠ .silent → s.line.tx = none → s.arb.confirmClean = false →
     ∃ t check, exec (.confirmationBegin inp) s = .next t ∧
       t.line.tx = some { kind := .confirmation
                          chars := [0xC3, BitVec.ofNat 8 (s.own.val + 16 * k.val), BitVec.ofNat 8 s.rating, check]
                          returned := 0, cables := [s.line.active], standby := [], elapsed := 0 } ∧
       frameCheckOk .confirmation
         [0xC3, BitVec.ofNat 8 (s.own.val + 16 * k.val), BitVec.ofNat 8 s.rating, check] = true ∧
       (∀ c, t.line.cable c = { s.line.cable c with decoder := .waitRelease, assembly := none }) ∧
       t.line.active = s.line.active ∧ t.line.check = s.line.check ∧ t.line.windowHold = s.line.windowHold ∧
       t.arb = s.arb ∧ t = follow { s with inputs := inp, line := t.line }) ∧
  (∀ (inp : Inputs) (s : State), s.cond = .running →
     (s.line.tx = none → s.arb.confirmClean = false →
       s.arb.part ≠ .won ∨ s.arb.pendingStart = none ∨ s.timer.mode = .silent →
       exec (.confirmationBegin inp) s = .next (follow (releaseRealignment { s with inputs := inp }))) ∧
     (s.line.tx.isSome = true ∨ s.arb.confirmClean = true →
       exec (.confirmationBegin inp) s = .next (follow { s with inputs := inp })))

/-- START_TAKEN_OR_DROPPED after a clean confirmation, with no realignment held: start seen takes the own round count, the pending
start becomes none, and the pump goes to PRIMING (through it where PRIME_SENSE stands) exactly where its start is valid (R3, R72,
R85, R86, R88). With a realignment held, the same comes first, the sampling mode follows the pump's change of state, and then the
realignment is applied (R29, R70, R135, R136); that the start comes first of the two is the model's choice (log 34). With no
pending start the own start seen is set all the same, no pump starts, and a held realignment is applied (R3, R29, R72, R78). Where
the confirmation has come back whole and its end has not been taken, the command ends it first, as TRANSMISSION_END does (log 24);
with no clean confirmation it changes nothing. -/
def Obligations.CleanConfirmationTakesAValidStart : Prop :=
  (∀ (inp : Inputs) (s : State) (k : PumpIx), s.cond = .running →
     (∀ x, s.line.tx = some x → x.kind = .announcement ∨ x.returned ≠ x.chars.length) → s.arb.confirmClean = true →
     s.arb.pendingStart = some k → s.arb.part = .won → s.timer.held = none →
     ∃ t, exec (.startTakenOrDropped inp) s = .next t ∧
       t.table = { s.table with ownStartSeen := some s.timer.count } ∧ t.arb.pendingStart = none ∧ t.arb.part = .won ∧
       t.arb.lastResult = s.arb.lastResult ∧ t.arb.confirmClean = false ∧
       (∀ w, s.arb.window = some w → t.arb.window = some { w with holding := false }) ∧
       (s.startIsValid k → inp.primeSense.getLsbD k = false →
         t.pump k = { s.pump k with state := .priming, primeTimer := some 30000000 } ∧ t.players = s.players ∧
         t.valveOpen k = true ∧
         t.committedDischarge = s.committedDischarge + (s.straps.rating.val + 1)) ∧
       (s.startIsValid k → inp.primeSense.getLsbD k = true →
         (t.pump k).state = .rampUp ∧ (t.pump k).primeTimer = none ∧ (t.pump k).minRunTimer = some 300000000 ∧
         (t.pump k).feedbackTimer = some 10000000 ∧ (t.player k).playing = true ∧
         (t.player k).step = some (s.pointers[k]).up) ∧
       (¬ s.startIsValid k → t.pumps = s.pumps ∧ t.players = s.players) ∧
       (∀ j, j ≠ k → t.pump j = s.pump j) ∧
       t = follow { s with inputs := inp, table := t.table, arb := t.arb, pumps := t.pumps, players := t.players }) ∧
  (∀ (inp : Inputs) (s : State) (k : PumpIx), s.cond = .running →
     (∀ x, s.line.tx = some x → x.kind = .announcement ∨ x.returned ≠ x.chars.length) → s.arb.confirmClean = true →
     s.arb.pendingStart = some k →
     ∃ u, exec (.startTakenOrDropped inp) s = .next (follow (releaseRealignment u)) ∧
       u.table = { s.table with ownStartSeen := some s.timer.count } ∧
       u.arb = { s.arb with confirmClean := false, pendingStart := none } ∧
       (s.startIsValid k → inp.primeSense.getLsbD k = false →
         u.pump k = { s.pump k with state := .priming, primeTimer := some 30000000 } ∧ u.players = s.players) ∧
       (s.startIsValid k → inp.primeSense.getLsbD k = true →
         (u.pump k).state = .rampUp ∧ (u.pump k).minRunTimer = some 300000000 ∧ (u.player k).playing = true) ∧
       (s.startIsValid k → u.gauge.sampling = .continuous ∧
         (s.gauge.sampling = .continuous → u.gauge = s.gauge) ∧
         (s.gauge.sampling = .periodic → u.gauge.waitCount = 0 ∧ u.gauge.polder.scan.isSome = true)) ∧
       (¬ s.startIsValid k → u.pumps = s.pumps ∧ u.players = s.players ∧ u.gauge = s.gauge) ∧
       (∀ j, j ≠ k → u.pump j = s.pump j ∧ u.player j = s.player j) ∧
       u = { s with inputs := inp, table := u.table, arb := u.arb, pumps := u.pumps, players := u.players, gauge := u.gauge }) ∧
  (∀ (inp : Inputs) (s : State), s.cond = .running →
     let unfinished := ∀ x, s.line.tx = some x → x.kind = .announcement ∨ x.returned ≠ x.chars.length
     (unfinished → s.arb.confirmClean = false →
       exec (.startTakenOrDropped inp) s = .next (follow { s with inputs := inp })) ∧
     (unfinished → s.arb.confirmClean = true → s.arb.pendingStart = none →
       exec (.startTakenOrDropped inp) s =
         .next (follow (releaseRealignment
           { s with inputs := inp, table := { s.table with ownStartSeen := some s.timer.count }
                    arb := { s.arb with confirmClean := false } }))) ∧
     (¬ unfinished →
       ∃ e, exec .transmissionEnd s = .next e ∧
         exec (.startTakenOrDropped inp) s =
           exec (.startTakenOrDropped inp)
             { s with line := e.line
                      arb := { s.arb with confirmClean := true, record := e.arb.record, window := e.arb.window } }))

/-! ### The own announcement and the frames the part sends (chapters 2, 8, 11) -/

/-- OWN_SLOT_START composes the announcement from the own entry, once in a round and only in JOINING aligned, MEMBER or
ISOLATED; the frame has the layout of R176 and a correct check (R40, R176, R177). ANNOUNCEMENT_TRANSMIT_BEGIN begins the
frame handed over on both cables and holds the decoders (R40, R144, R150, R151, log 20, log 37). The own pump summary has a code of
two bits for each pump, by its state (R4), and the own offer is the value of the station's curve at the held river class, none at a
plain station or while the class is unknown (R3, R134). That a second start of the slot in a round, after a backward move, composes
nothing is log 44. -/
def Obligations.OwnSlotComposesAndBeginsTheAnnouncement : Prop :=
  (∀ (inp : Inputs) (s : State), s.cond = .running → ∃ t, exec (.ownSlotStart inp) s = .next t ∧
     ((s.timer.mode = .joining ∧ s.timer.aligned = true) ∨ s.timer.mode = .member ∨ s.timer.mode = .isolated →
       s.timer.announceTaken = false →
       ∃ hi lo,
         let body : List Byte :=
           [0x5A, BitVec.ofNat 8 (s.own.val + 16 * (match s.timer.mode with | .joining => 0 | .member => 1 | _ => 2)),
             s.timer.count.extractLsb' 8 8, s.timer.count.extractLsb' 0 8,
             BitVec.ofNat 8 ((match s.gauge.polder.heldClass with | some c => c.val | none => 15) +
               (if s.gauge.flood then 128 else 0)),
             BitVec.ofNat 8 s.alloc.demand, BitVec.ofNat 8 s.committedDischarge, BitVec.ofNat 8 s.straps.island.val,
             BitVec.ofNat 8 (s.ownOffer.getD 63), inp.flags.zeroExtend 8, s.ownSummary]
         t = follow
           { s with
             inputs := inp, timer := { s.timer with announceTaken := true }
             line := { s.line with handed := some (body ++ [hi, lo]) } } ∧
         frameCheckOk .announcement (body ++ [hi, lo]) = true) ∧
     ((s.timer.mode = .joining ∧ s.timer.aligned = false) ∨ s.timer.mode = .silent ∨ s.timer.announceTaken = true →
       t = follow { s with inputs := inp })) ∧
  (∀ (cs : List Byte) (s : State), s.cond = .running → s.line.handed = some cs →
     exec .announcementTransmitBegin s =
       .next (follow
         { s with line :=
           { s.line with
             a := { s.line.a with decoder := .waitRelease, assembly := none }
             b := { s.line.b with decoder := .waitRelease, assembly := none }
             handed := none
             tx := some { kind := .announcement, chars := cs, returned := 0, cables := [s.line.active], standby := [],
                          elapsed := 0 } } })) ∧
  (∀ s : State,
     let code := fun (k : PumpIx) =>
       match (s.pump k).state with
       | .absent | .held => 0
       | .idle | .resting => 1
       | .priming | .rampUp | .running | .rampDown => 2
       | .faulted => 3
     s.ownSummary = BitVec.ofNat 8 (code 0 + 4 * code 1 + 16 * code 2 + 64 * code 3) ∧
     (s.straps.role.val = 0 ∨ s.gauge.outfall.heldClass = none → s.ownOffer = none) ∧
     (∀ c, s.gauge.outfall.heldClass = some c →
       (s.straps.role.val = 1 → s.ownOffer = ([62, 56, 48, 40, 32, 24, 12, 0] : List Nat)[c.val]?) ∧
       (s.straps.role.val = 2 → s.ownOffer = ([48, 44, 40, 32, 24, 16, 8, 0] : List Nat)[c.val]?) ∧
       (s.straps.role.val = 3 → s.ownOffer = ([40, 36, 32, 28, 20, 12, 6, 0] : List Nat)[c.val]?) ∧
       (s.straps.role.val = 4 → s.ownOffer = ([32, 28, 24, 20, 16, 8, 4, 0] : List Nat)[c.val]?)))

/-- CHARACTER_READ_BACK: a character that comes back unchanged on the cable that was active at its start edge lets the frame go
on, and its copy on the other cable is kept (R150, R151, R154). Any other stops the frame and is a read-back failure of the round,
the third in a row of which sends the station to SILENT (R38, R151); after a confirmation the start is dropped and a held
realignment is applied (R29, R71 to R73). Where the start edge has not come by the part's own time, the cable active now stands in
its place (log 23); that the drop comes in this command is log 24. Where the failure sends the station to SILENT, that an
announcement handed over is dropped is log 22, and that the joining count of a JOINING station stands is the model's choice
between R34 and R39 (log 31). -/
def Obligations.ReadBackStopsTheFrameAtAMismatch : Prop :=
  ∀ (onA onB : Returned) (inp : Inputs) (s : State) (tx : Transmission) (c : Byte), s.cond = .running →
    s.line.tx = some tx → tx.chars[tx.returned]? = some c →
    let compared := (tx.cables[tx.returned]?).getD s.line.active
    let back := match compared with | .a => onA | .b => onB
    let copy := match compared with | .a => onB | .b => onA
    let fails := back = .noEdge ∨ ∃ r, back = .char r ∧ judgeReadings r ≠ .char c false false
    (back = .char (readingsOf c) →
      let on : Transmission := { tx with returned := tx.returned + 1, standby := tx.standby ++ [copy] }
      exec (.characterReadBack onA onB inp) s =
        .next (follow { s with inputs := inp, line := { s.line with tx := some on } })) ∧
    (fails → tx.kind = .announcement →
      ∃ u, exec (.characterReadBack onA onB inp) s = .next (follow u) ∧ State.failsReadBack { s with inputs := inp } u ∧
        (s.arb.part ≠ .won → u.arb = s.arb)) ∧
    (fails → tx.kind = .confirmation →
      ∃ u, exec (.characterReadBack onA onB inp) s = .next (follow (releaseRealignment u)) ∧
        State.failsReadBack { s with inputs := inp } u ∧ u.arb.pendingStart = none)

/-- What a decoder reads from the cells of a character sent is that character without a fault, for every value (R140, R141). The
two checks: the register of an announcement has 16 bits and begins at 0xFFFF, that of a confirmation has 8 bits and begins at 0;
each character is added by exclusive-or into the register's top eight bits, and the register is then shifted left eight times,
with 0x1021 or 0x07 added by exclusive-or at each shift that shifts out a 1. A complete announcement is judged by the register
over its characters 1 to 11 in its characters 12 (high) and 13 (low), a confirmation by that over its characters 1 to 3 in its
character 4 (R143, R176, R177). -/
def Obligations.CharacterCellsAndFrameChecksFollowTheirRules : Prop :=
  (∀ c : Byte, judgeReadings (readingsOf c) = .char c false false ∧ (readingsOf c).getLsbD 0 = false ∧
     (readingsOf c).getLsbD 10 = true ∧ (∀ i : Fin 8, (readingsOf c).getLsbD (i + 1) = c.getLsbD i) ∧
     ((List.range 9).countP (fun i => (readingsOf c).getLsbD (i + 1))) % 2 = 0) ∧
  (let shift16 := fun r : Nat => if 32768 ≤ r then (2 * r - 65536) ^^^ 0x1021 else 2 * r
   let shift8 := fun r : Nat => if 128 ≤ r then (2 * r - 256) ^^^ 0x07 else 2 * r
   (crc16 []).toNat = 0xFFFF ∧ (crc8 []).toNat = 0 ∧
   ∀ (cs : List Byte) (c : Byte),
     (crc16 (cs ++ [c])).toNat =
       shift16 (shift16 (shift16 (shift16 (shift16 (shift16 (shift16 (shift16 ((crc16 cs).toNat ^^^ (256 * c.toNat))))))))) ∧
     (crc8 (cs ++ [c])).toNat =
       shift8 (shift8 (shift8 (shift8 (shift8 (shift8 (shift8 (shift8 ((crc8 cs).toNat ^^^ c.toNat))))))))) ∧
  (∀ (body : List Byte) (hi lo : Byte), body.length = 11 →
     (frameCheckOk .announcement (body ++ [hi, lo]) = true ↔ (crc16 body).toNat = 256 * hi.toNat + lo.toNat)) ∧
  (∀ (body : List Byte) (check : Byte), body.length = 3 →
     (frameCheckOk .confirmation (body ++ [check]) = true ↔ (crc8 body).toNat = check.toNat))

/-- FOREIGN_EDGE_ON_FRAME during a confirmation with no realignment held: the frame stops, the start is dropped with the win
standing, and the failure counts toward silence (R38, R71, R72, R73). With a realignment held, the same comes first and then the
realignment is applied (R29). During an announcement the frame stops and the failure counts (R38, R151). That the drop comes in
this command is log 24. Where the failure sends the station to SILENT, that an announcement handed over is dropped is log 22, and
that the joining count of a JOINING station stands is the model's choice between R34 and R39 (log 31). -/
def Obligations.ForeignEdgeOnAConfirmationDropsTheStart : Prop :=
  (∀ (inp : Inputs) (s : State) (tx : Transmission), s.cond = .running → s.line.tx = some tx → tx.kind = .confirmation →
     s.arb.part = .won → s.timer.held = none →
     ∃ t, exec (.foreignEdgeOnFrame inp) s = .next t ∧ t.line.tx = none ∧ t.arb.pendingStart = none ∧ t.arb.part = .won ∧
       t.arb.lastResult = s.arb.lastResult ∧ t.arb.record = s.arb.record ∧ t.timer.failedInRound = true ∧
       t.pumps = s.pumps ∧ t.players = s.players ∧ t.table = s.table ∧
       (s.timer.failedInRound = false →
         t.timer.readBackCount = s.timer.readBackCount + 1 ∧ (2 ≤ s.timer.readBackCount → t.timer.mode = .silent)) ∧
       (s.timer.failedInRound = true → t.timer = s.timer) ∧
       (∀ w, s.arb.window = some w → t.arb.window = some { w with holding := false }) ∧
       t = follow { s with inputs := inp, timer := t.timer, arb := t.arb, line := t.line, port := t.port }) ∧
  (∀ (inp : Inputs) (s : State) (tx : Transmission), s.cond = .running → s.line.tx = some tx →
     (tx.kind = .announcement →
       ∃ u, exec (.foreignEdgeOnFrame inp) s = .next (follow u) ∧ State.failsReadBack { s with inputs := inp } u ∧
         (s.arb.part ≠ .won → u.arb = s.arb)) ∧
     (tx.kind = .confirmation →
       ∃ u, exec (.foreignEdgeOnFrame inp) s = .next (follow (releaseRealignment u)) ∧
         State.failsReadBack { s with inputs := inp } u ∧ u.arb.pendingStart = none))

/-- TRANSMISSION_END of a frame that has come back whole: the frame ends; a confirmation is reported clean, makes the window not
free and replaces the window record, and an announcement changes nothing else (R6, R75, R76, R151). A RUNNING check compares the
frame with its copy on the standby cable, where both were read (R154). That the record takes the round count before a realignment
held to this end is the model's choice (log 48). -/
def Obligations.TransmissionEndReportsACleanFrame : Prop :=
  ∀ (s : State) (tx : Transmission), s.cond = .running → s.line.tx = some tx → tx.returned = tx.chars.length →
    ∃ t, exec .transmissionEnd s = .next t ∧ t.line = { s.line with tx := none, check := t.line.check } ∧
      (s.line.check.running = false → t.line.check = s.line.check) ∧
      (∀ copy, tx.standby = copy.map (fun c => Returned.char (readingsOf c)) → s.line.check.running = true →
        s.line.check.armed = true → s.line.check.arrivals = [] → s.line.check.opened = [] →
        t.line.check.opened = [] ∧
        (copy = tx.chars → tx.chars.length = tx.kind.length → frameCheckOk tx.kind tx.chars = true →
          t.line.check.roundErrored = s.line.check.roundErrored) ∧
        (copy ≠ tx.chars → t.line.check.roundErrored = true)) ∧
      (tx.kind = .announcement → t = follow { s with line := { s.line with tx := none, check := t.line.check } }) ∧
      (∀ c2 c3 c4, tx.kind = .confirmation → tx.chars = [0xC3, c2, c3, c4] →
        ∃ r, t.arb.confirmClean = true ∧ t.arb.record = some r ∧
          r.station.val = c2.toNat % 16 ∧ r.pump.val = c2.toNat / 16 % 4 ∧ r.rating = c3 ∧ r.round = s.timer.count ∧
          (∀ w, s.arb.window = some w → t.arb.window = some { w with notFree := true }) ∧
          (s.arb.part = .won → t.arb.part = .won ∧ t.arb.pendingStart = s.arb.pendingStart) ∧
          t = follow
            { s with
              arb := { s.arb with confirmClean := true, record := some r
                                  window := s.arb.window.map (fun w => { w with notFree := true }) }
              line := t.line })

/-! ### Reception (chapter 8) -/

/-- CHARACTER_COMPLETE on a decoder that seeks and is not held: a released start bit is no character; with no frame under way a
good lead begins one, whose first start edge lies 336 µs back, with the own phase and count at that edge kept, on the schedule
that a realignment since has replaced where there was one (R27, R30, log 14; one at that very instant counts as since, log 49), and
anything else is a stray; within a frame the character is taken, a parity fault voids the frame and a stop fault ends it, and a
character that began too late finds the frame truncated (R142, R143, log 47); while the cable is LOCKED each faulty character
counts (R141, R142, R145). While the decoders are held, or a decoder waits for release, no character is formed (R141, R144), and
DECODER_INPUT_RELEASED lets a decoder that is not held seek again. -/
def Obligations.CharactersBuildFramesUnlessHeld : Prop :=
  (∀ (c : Cable) (r : Readings) (s : State), s.cond = .running → s.line.tx = none → s.line.windowHold = false →
     (s.line.cable c).decoder = .seeking → ∃ t, exec (.characterComplete c r) s = .next t ∧
       let was := s.line.cable c
       let x : CableState :=
         if ∃ f, was.assembly = some f ∧ f.chars.length < f.kind.length ∧ 704 < f.sinceChar then
           { was with
             assembly := none
             checkCount := if was.locked = true ∧ was.assembly.all (fun f => !f.void) then min 255 (was.checkCount + 1)
                           else was.checkCount }
         else was
       let edge := match s.timer.replaced.find? (fun r => decide (r.age ≤ 336)) with
         | some r => (r.phase + r.age, r.count)
         | none => (s.timer.phase, s.timer.count)
       let v : Byte := r.extractLsb' 1 8
       let parityFault := decide (((List.range 9).countP (fun i => r.getLsbD (i + 1))) % 2 = 1)
       let stopFault := !r.getLsbD 10
       let counted := if (parityFault || stopFault) && x.locked then min 255 (x.parityCount + 1) else x.parityCount
       (r.getLsbD 0 = true → t.line = s.line) ∧
       (r.getLsbD 0 = false → t.line.cable (otherCable c) = s.line.cable (otherCable c)) ∧
       (r.getLsbD 0 = false → x.assembly = none →
         ((v = 0x5A ∨ v = 0xC3) → parityFault = false → stopFault = false →
           t.line.cable c =
             { x with
               assembly := some
                 { kind := if v = 0x5A then .announcement else .confirmation, chars := [v], void := false, edgeAge := 336
                   edgePhase := if edge.1 < 336 then edge.1 + 499664 else edge.1 - 336
                   edgeCount := if edge.1 < 336 then edge.2 - 1 else edge.2, sinceChar := 0 } }) ∧
         (¬ ((v = 0x5A ∨ v = 0xC3) ∧ parityFault = false ∧ stopFault = false) →
           t.line.cable c =
             { x with parityCount := counted, decoder := if stopFault then .waitRelease else .seeking })) ∧
       (∀ f, r.getLsbD 0 = false → x.assembly = some f → f.chars.length < f.kind.length →
         t.line.cable c =
           { x with
             parityCount := counted, decoder := if stopFault then .waitRelease else .seeking
             assembly :=
               if stopFault then none
               else some { f with chars := f.chars ++ [v], void := f.void || parityFault, sinceChar := 0 } }) ∧
       t = follow { s with line := t.line } ∧
       (t.line.handed = s.line.handed ∧ t.line.tx = none ∧ t.line.active = s.line.active ∧ t.line.check = s.line.check)) ∧
  (∀ (c : Cable) (r : Readings) (s : State), s.cond = .running →
     (s.line.tx.isSome = true ∨ s.line.windowHold = true ∨ (s.line.cable c).decoder = .waitRelease →
       exec (.characterComplete c r) s = .next (follow s)) ∧
     (s.line.tx.isSome = true ∨ s.line.windowHold = true → exec (.decoderInputReleased c) s = .next (follow s)) ∧
     (s.line.tx = none → s.line.windowHold = false →
       exec (.decoderInputReleased c) s = .next (follow (setCable c { s.line.cable c with decoder := .seeking } s))))

/-- A frame of the standby cable, or one whose check is wrong, is offered to no block: a check failure counts while the cable is
LOCKED, a valid frame marks its cable's round (R6, R143, R145, R146). Stated with no cable check running. -/
def Obligations.OnlyValidFramesOfTheActiveCableAreOffered : Prop :=
  ∀ (c : Cable) (inp : Inputs) (s : State) (f : Assembly), s.cond = .running → s.line.check.running = false →
    (s.line.cable c).assembly = some f → f.kind.length ≤ f.chars.length →
    (f.void = true →
      exec (.frameArrival c inp) s =
        .next (follow (setCable c { s.line.cable c with assembly := none } { s with inputs := inp }))) ∧
    (f.void = false → frameCheckOk f.kind f.chars = false →
      exec (.frameArrival c inp) s =
        .next (follow (setCable c
          { s.line.cable c with
            assembly := none
            checkCount := if (s.line.cable c).locked then min 255 ((s.line.cable c).checkCount + 1)
                          else (s.line.cable c).checkCount }
          { s with inputs := inp }))) ∧
    (f.void = false → frameCheckOk f.kind f.chars = true → s.line.active ≠ c →
      exec (.frameArrival c inp) s =
        .next (follow (setCable c { s.line.cable c with assembly := none, frameMark := true } { s with inputs := inp })))

/-- While the cable check is RUNNING, a frame on the standby cable closes every open comparison, unmatched where it is not valid
or differs, and from the first round end on a frame valid on the active cable is compared with the frame that arrived on the
standby within the last 1.0 ms, or stands open (R154; which arrival closes which comparison is log 15). Stated for FRAME_ARRIVAL;
the active cable's frame is a confirmation, or an announcement by which no round end can be carried in. -/
def Obligations.CheckComparesTheFramesOfBothCables : Prop :=
  ∀ (c : Cable) (inp : Inputs) (s : State) (f : Assembly), s.cond = .running → s.line.check.running = true →
    (s.line.cable c).assembly = some f → f.kind.length ≤ f.chars.length →
    let valid := !f.void && frameCheckOk f.kind f.chars
    let k := s.line.check
    (s.line.active ≠ c → ∃ t, exec (.frameArrival c inp) s = .next t ∧
      t.line.check =
        { k with
          roundErrored := k.roundErrored || k.opened.any (fun o => !valid || decide (f.chars ≠ o.chars)), opened := []
          arrivals := k.arrivals ++ [⟨if valid then some f.chars else none, 0⟩] } ∧
      (t.line.cable c).assembly = none ∧ (t.line.cable c).frameMark = ((s.line.cable c).frameMark || valid) ∧
      t = follow { s with inputs := inp, line := t.line }) ∧
    (s.line.active = c → valid = true →
      let phase := (28000 * ((f.chars.getD 1 0).toNat % 16) + 1000 + f.edgeAge) % 500000
      let move := (phase + 500000 - s.timer.phase % 500000) % 500000
      f.kind = .confirmation ∨ 250000 < move ∨ s.timer.phase + move < 500000 →
      ∃ t, exec (.frameArrival c inp) s = .next t ∧
        (k.armed = false → t.line.check = k) ∧
        (k.armed = true → (∀ r ∈ k.arrivals, 1000 < r.age) →
          t.line.check = { k with opened := k.opened ++ [⟨f.chars, 0⟩] }) ∧
        (∀ r, k.armed = true → k.arrivals.find? (fun r => decide (r.age ≤ 1000)) = some r →
          t.line.check = { k with roundErrored := k.roundErrored || decide (r.chars ≠ some f.chars) })) ∧
    (s.line.active = c → valid = false → ∃ t, exec (.frameArrival c inp) s = .next t ∧ t.line.check = k ∧
      t.table = s.table ∧ t.timer = s.timer)

/-- FRAME_ARRIVAL of an announcement that a JOINING aligned, a MEMBER or a SILENT station accepts: the sender's entry is replaced
whole by the readings of R7, the reference is chosen anew, the round is marked and the cable's round too (R7, R8, R26, R31, R143,
R146), and a running cable check takes the frame (R154). A MEMBER station accepts the frame of its timing reference, of a
lower-numbered station in MEMBER or ISOLATED, and any that is in step: of the own round count, and within 6 ms of its place, at
its first start edge (R30). Where the sender is not the reference after it, nothing else changes; where it is, the timer is
realigned to it, or the realignment is held for a won window (R27 to R29). That the table applies the frame before a round end
that it carries in, and that the mark belongs to the new round, is log 11; that a station which that round end makes ISOLATED is
JOINING and aligned after it is log 12. -/
def Obligations.AcceptedAnnouncementReplacesTheEntry : Prop :=
  ∀ (c : Cable) (inp : Inputs) (s : State) (f : Assembly) (k : Station) (m : Mode), s.cond = .running →
    s.line.active = c → (s.line.cable c).assembly = some f → f.kind = .announcement →
    f.chars.length = 13 → f.void = false → frameCheckOk .announcement f.chars = true →
    let ch := fun n => (f.chars.getD n 0).toNat
    let count : Word16 := BitVec.ofNat 16 (256 * ch 2 + ch 3)
    let early := (f.edgePhase + 500000 - (28000 * k.val + 1000)) % 500000
    let entry : Entry :=
      { status := .fresh, age := 0
        fields := some
          { mode := m, polderClass := if h : ch 4 % 16 < 8 then some ⟨ch 4 % 16, h⟩ else none
            flood := decide (128 ≤ ch 4), demand := min 63 (ch 5), committed := min 63 (ch 6), island := min 7 (ch 7)
            offer := if ch 8 ≤ 62 then some (ch 8) else none, flags := BitVec.ofNat 4 (ch 9)
            summary := f.chars.getD 10 0 }
        startSeen := none, lastCount := some count }
    ch 1 % 16 = k.val → k ≠ s.own →
    (ch 1 / 16 % 4 = 0 ∧ m = .joining ∨ ch 1 / 16 % 4 = 1 ∧ m = .member ∨ ch 1 / 16 % 4 = 2 ∧ m = .isolated) →
    (s.timer.mode = .joining ∧ s.timer.aligned = true ∨ s.timer.mode = .silent ∨
      s.timer.mode = .member ∧
        (s.timer.reference = some k ∨ (∃ r, s.timer.reference = some r ∧ k < r ∧ m ≠ .joining) ∨
          count = f.edgeCount ∧ (early ≤ 6000 ∨ 494000 ≤ early))) →
    (m = .joining ∨ (∃ j, j < k ∧ s.isReferenceCandidate j) →
      ∃ r, ∃ t : State,
        t = setCable c { s.line.cable c with assembly := none, frameMark := true }
          { s with inputs := inp, table := { s.table with entries := s.table.entries.set k entry }
                   timer := { s.timer with roundMarked := true, reference := r }
                   line := { s.line with check := s.line.check.afterActive f.chars } } ∧
        t.referenceChosen ∧ exec (.frameArrival c inp) s = .next (follow t)) ∧
    (m ≠ .joining → (∀ j, j < k → ¬ s.isReferenceCandidate j) →
      let applied : State := setCable c { s.line.cable c with assembly := none }
        { s with inputs := inp, table := { s.table with entries := s.table.entries.set k entry }
                 timer := { s.timer with reference := some k } }
      let u := realignOrHold k count f.edgeAge applied
      (u.timer.mode ≠ .isolated →
        exec (.frameArrival c inp) s = .next (follow (setCable c { u.line.cable c with frameMark := true }
          { u with timer := { u.timer with roundMarked := true }
                   line := { u.line with check := u.line.check.afterActive f.chars } }))) ∧
      (u.timer.mode = .isolated →
        ∃ r, ∃ t : State,
          t = setCable c { u.line.cable c with frameMark := true }
            { u with timer := { u.timer with mode := .joining, aligned := true, joiningCount := 0, reference := r
                                             roundMarked := true }
                     line := { u.line with check := u.line.check.afterActive f.chars }
                     port := { u.port with flags := u.port.flags ||| 0b100000 } } ∧
          t.referenceChosen ∧ exec (.frameArrival c inp) s = .next (follow t)) ∧
      ((∀ w, s.arb.window = some w → w.holding = false) →
        u.timer.phase = (28000 * k.val + 1000 + f.edgeAge) % 500000 ∧ u.timer.count = count))

/-- FRAME_ARRIVAL of a valid announcement that is not accepted leaves every entry as it was, and still marks its cable's round:
one of the own number, one of mode code 3, and at a MEMBER station one out of step; one of the own number sends a JOINING station
to SILENT, which then has nothing to send (R7, R9, R30, R35, R39, R78, R146). A running cable check takes the frame all the same
(R154). Where the station goes to SILENT, that a frame handed over or under way is dropped is log 22, and that its joining count
stands is the model's choice between R34 and R39 (log 31). -/
def Obligations.RefusedAnnouncementLeavesTheTable : Prop :=
  ∀ (c : Cable) (inp : Inputs) (s : State) (f : Assembly) (k : Station), s.cond = .running →
    s.line.active = c → (s.line.cable c).assembly = some f → f.kind = .announcement →
    f.chars.length = 13 → f.void = false → frameCheckOk .announcement f.chars = true →
    let ch := fun n => (f.chars.getD n 0).toNat
    let count : Word16 := BitVec.ofNat 16 (256 * ch 2 + ch 3)
    let slot := 28000 * k.val + 1000
    let early := (f.edgePhase + 500000 - slot) % 500000
    ch 1 % 16 = k.val →
    (k = s.own ∨ ch 1 / 16 % 4 = 3 ∨
      (s.timer.mode = .member ∧ s.timer.reference ≠ some k ∧
        (∀ r, s.timer.reference = some r → ¬ (k < r ∧ (ch 1 / 16 % 4 = 1 ∨ ch 1 / 16 % 4 = 2))) ∧
        (count ≠ f.edgeCount ∨ (6000 < early ∧ early < 494000)))) →
    (¬ (k = s.own ∧ s.timer.mode = .joining) →
      exec (.frameArrival c inp) s = .next (follow (setCable c { s.line.cable c with assembly := none, frameMark := true }
        { s with inputs := inp, line := { s.line with check := s.line.check.afterActive f.chars } }))) ∧
    (k = s.own → s.timer.mode = .joining →
      ∃ r, ∃ t : State,
        t = setCable c { s.line.cable c with assembly := none, frameMark := true }
          { s with inputs := inp, timer := { s.timer with mode := .silent, reference := r }
                   arb := { s.arb with pendingStart := if s.arb.part = .won then none else s.arb.pendingStart }
                   line := { s.line with handed := none, tx := none, check := s.line.check.afterActive f.chars }
                   port := { s.port with flags := s.port.flags ||| 0b100000 } } ∧
        t.referenceChosen ∧ exec (.frameArrival c inp) s = .next (follow t))

/-- FRAME_ARRIVAL of the first announcement that the table accepts aligns a JOINING station to its sender, whatever the sender's
mode: phase and count are set from the frame, and the realignment count gains 1 for a move above 2 ms and 1 for a change of count,
compared after a round end that the move carries in (R27, R28, R33). An ISOLATED station is sent back to JOINING and aligned in
the same way, its joining count starts from 0, and MODE CHANGE is set (R32, R37). The sender's entry is replaced whole by the
readings of R7, the reference is chosen anew, the round is marked and the cable's round too, a running cable check takes the
frame, and a station that holds a won window holds the realignment (R7, R8, R26, R29, R31, R146, R154). That the table applies the
frame before the round end that it carries in, and that the mark belongs to the new round, is log 11; that a JOINING station which
the carried round end makes ISOLATED is JOINING and aligned after it all the same is the model's choice (log 12). -/
def Obligations.FirstAcceptedFrameAlignsAJoiningStation : Prop :=
  ∀ (c : Cable) (inp : Inputs) (s : State) (f : Assembly) (k : Station), s.cond = .running →
    s.line.active = c → (s.line.cable c).assembly = some f → f.kind = .announcement →
    f.chars.length = 13 → f.void = false → frameCheckOk .announcement f.chars = true →
    let ch := fun n => (f.chars.getD n 0).toNat
    let count : Word16 := BitVec.ofNat 16 (256 * ch 2 + ch 3)
    let phase := (28000 * k.val + 1000 + f.edgeAge) % 500000
    let move := (phase + 500000 - s.timer.phase % 500000) % 500000
    let carried := decide (move ≤ 250000 ∧ 500000 ≤ s.timer.phase + move)
    let entry := fun (m : Mode) => ({
      status := .fresh, age := 0
      fields := some
        { mode := m, polderClass := if h : ch 4 % 16 < 8 then some ⟨ch 4 % 16, h⟩ else none
          flood := decide (128 ≤ ch 4), demand := min 63 (ch 5), committed := min 63 (ch 6), island := min 7 (ch 7)
          offer := if ch 8 ≤ 62 then some (ch 8) else none, flags := BitVec.ofNat 4 (ch 9)
          summary := f.chars.getD 10 0 }
      startSeen := none, lastCount := some count } : Entry)
    ch 1 % 16 = k.val → k ≠ s.own → ch 1 / 16 % 4 ≠ 3 →
    (s.timer.mode = .joining ∧ s.timer.aligned = false ∨ s.timer.mode = .isolated) →
    (∀ m, ch 1 / 16 % 4 = 0 ∧ m = .joining ∨ ch 1 / 16 % 4 = 1 ∧ m = .member ∨ ch 1 / 16 % 4 = 2 ∧ m = .isolated →
      ∃ r, ∃ applied u : State,
        applied = setCable c { s.line.cable c with assembly := none }
          { s with inputs := inp, table := { s.table with entries := s.table.entries.set k (entry m) }
                   timer := { s.timer with reference := r } } ∧
        applied.referenceChosen ∧ u = realignOrHold k count f.edgeAge applied ∧
        (u.timer.mode ≠ .isolated →
          exec (.frameArrival c inp) s = .next (follow (setCable c { u.line.cable c with frameMark := true }
            { u with timer := { u.timer with aligned := decide (u.timer.mode = .joining) || u.timer.aligned, roundMarked := true }
                     line := { u.line with check := u.line.check.afterActive f.chars } }))) ∧
        (u.timer.mode = .isolated →
          ∃ q, ∃ t : State,
            t = setCable c { u.line.cable c with frameMark := true }
              { u with timer := { u.timer with mode := .joining, aligned := true, joiningCount := 0, reference := q
                                               roundMarked := true }
                       line := { u.line with check := u.line.check.afterActive f.chars }
                       port := { u.port with flags := u.port.flags ||| 0b100000 } } ∧
            t.referenceChosen ∧ exec (.frameArrival c inp) s = .next (follow t))) ∧
    ((s.timer.mode = .joining → s.timer.roundMarked = false) →
    (∀ w, s.arb.window = some w → w.holding = false) →
    ∃ t, exec (.frameArrival c inp) s = .next t ∧ t.timer.mode = .joining ∧ t.timer.aligned = true ∧
      t.timer.phase = phase ∧ t.timer.count = count ∧ t.timer.roundMarked = true ∧
      t.timer.realignCount =
        s.timer.realignCount + (if 2000 < min move (500000 - move) then 1 else 0) +
          (if s.timer.count + (if carried then 1 else 0) = count then 0 else 1) ∧
      (s.timer.mode = .isolated → t.timer.joiningCount = 0 ∧ t.port.flags.getLsbD 5 = true) ∧
      (t.table.entries[k]).status = .fresh ∧ (t.table.entries[k]).age = (if carried then 1 else 0) ∧
      (t.line.cable c).frameMark = true)

/-- A realignment that passes no round end skips the settle point, the window and the own announcement that lie in a forward span
and leaves what a backward one passes; one that a station holds for its won window waits, and a second replaces it (R24, R27, R28,
R29). One that passes a round end takes it, with all that ROUND_END does, skips what lies in the span on either side of it, and
compares the count after it (R27, R28). The end of the hold applies a held realignment, and its frame's round is marked (R29, R31,
log 11). The instant of the own announcement in the schedule is log 13, and that a start wanted stands where the window alone is
skipped is log 33. An instant that falls together with the old phase is passed, and one that falls together with the new phase is
not (log 42); a round end that is due at that instant stands after a backward move (log 41), and so does an announcement handed
over (log 44). The schedule that a realignment replaces is noted for the out-of-step test (R30). -/
def Obligations.RealignmentSkipsForwardAndLeavesBackward : Prop :=
  ∀ (k : Station) (count : Word16) (age : Nat) (s : State),
    let phase := (28000 * k.val + 1000 + age) % 500000
    let move := (phase + 500000 - s.timer.phase % 500000) % 500000
    let passes := fun instant => decide (move ≤ 250000 ∧ s.timer.phase ≤ instant ∧ instant < phase)
    let own := 28000 * s.own.val + 1000
    let replaced := s.timer.replaced ++ [⟨s.timer.phase, s.timer.count, 0⟩]
    (¬ (move ≤ 250000 ∧ 500000 ≤ s.timer.phase + move) →
      realign k count age s =
        { s with
          timer := { s.timer with
            phase := phase, count := count
            realignCount := s.timer.realignCount + (if 2000 < min move (500000 - move) then 1 else 0) +
              (if s.timer.count = count then 0 else 1)
            settleTaken := s.timer.settleTaken || passes 448000
            windowTaken := s.timer.windowTaken || passes 448000
            announceTaken := s.timer.announceTaken || passes own, replaced := replaced }
          line := { s.line with handed := if passes own then none else s.line.handed } }) ∧
    (∀ w, s.arb.window = some w → w.holding = true →
      realignOrHold k count age s =
        { s with timer := { s.timer with held := some { sender := k, frameCount := count, edgeAge := age } } }) ∧
    ((∀ w, s.arb.window = some w → w.holding = false) → realignOrHold k count age s = realign k count age s) ∧
    (s.cond = .running → move ≤ 250000 → 500000 ≤ s.timer.phase + move →
      ∃ e, exec (.roundEnd s.inputs) s = .next e ∧
        realign k count age s =
          { e with
            arb := s.arb
            timer := { e.timer with
              phase := phase, count := count
              realignCount := s.timer.realignCount + (if 2000 < min move (500000 - move) then 1 else 0) +
                (if s.timer.count + 1 = count then 0 else 1)
              settleTaken := decide (448000 < phase), windowTaken := decide (448000 < phase)
              announceTaken := decide (own < phase), replaced := replaced }
            line := { e.line with
              handed := if s.timer.phase ≤ own ∧ own < 500000 ∨ own < phase then none else s.line.handed } }) ∧
    (let arb : Arbiter := { s.arb with window := s.arb.window.map (fun w => ({ w with holding := false } : Window)) }
     (s.timer.held = none → releaseRealignment s = { s with arb := arb }) ∧
     (∀ h, s.timer.held = some h → ∃ u,
       u = realign h.sender h.frameCount h.edgeAge { s with arb := arb, timer := { s.timer with held := none } } ∧
       releaseRealignment s = { u with timer := { u.timer with roundMarked := true } }))

/-- FRAME_ARRIVAL of a valid confirmation of another station on the active cable: a rating of 1 to 8 raises the winner's committed
figure and sets start seen, or makes an entry out of an EMPTY one; any other rating leaves the table; the window record takes what
the frame carries and the window is not free (R11, R12, R75, R76). One that bears the own number leaves the table, is recorded and
counts for the window in the same way, and sends a JOINING station to SILENT (R11, R35, R75, R76, R78). Its cable's round is
marked, and a running cable check takes the frame (R146, R154). Where the station goes to SILENT, that a frame handed over or
under way is dropped is log 22, and that its joining count stands is the model's choice between R34 and R39 (log 31). -/
def Obligations.ConfirmationRaisesTheWinnersCommitted : Prop :=
  (∀ (c : Cable) (inp : Inputs) (s : State) (f : Assembly) (k : Station) (p : PumpIx), s.cond = .running →
     s.line.active = c → (s.line.cable c).assembly = some f → f.kind = .confirmation →
     f.chars.length = 4 → f.void = false → frameCheckOk .confirmation f.chars = true →
     let ch := fun n => (f.chars.getD n 0).toNat
     let old := s.table.entries[k]
     ch 1 % 16 = k.val → ch 1 / 16 % 4 = p.val → k ≠ s.own →
     ∃ t, exec (.frameArrival c inp) s = .next (follow t) ∧
       (1 ≤ ch 2 → ch 2 ≤ 8 → old.fields = none →
         t.table.entries[k] =
           { status := .fresh, age := 0
             fields := some { mode := .joining, polderClass := none, flood := false, demand := 0, committed := ch 2, island := 0,
                              offer := none, flags := 0, summary := 0 }
             startSeen := some s.timer.count, lastCount := none }) ∧
       (∀ g, 1 ≤ ch 2 → ch 2 ≤ 8 → old.fields = some g →
         t.table.entries[k] =
           { old with fields := some { g with committed := min 63 (g.committed + ch 2) }, startSeen := some s.timer.count }) ∧
       (ch 2 = 0 ∨ 8 < ch 2 → t.table = s.table) ∧
       (∀ j, j ≠ k → t.table.entries[j] = s.table.entries[j]) ∧
       t = setCable c { s.line.cable c with assembly := none, frameMark := true }
         { s with inputs := inp, table := { s.table with entries := t.table.entries }
                  arb := { s.arb with
                    record := some { station := k, pump := p, rating := f.chars.getD 2 0, round := s.timer.count }
                    window := s.arb.window.map (fun w => { w with notFree := true }) }
                  line := { s.line with check := s.line.check.afterActive f.chars } }) ∧
  (∀ (c : Cable) (inp : Inputs) (s : State) (f : Assembly) (p : PumpIx), s.cond = .running →
     s.line.active = c → (s.line.cable c).assembly = some f → f.kind = .confirmation →
     f.chars.length = 4 → f.void = false → frameCheckOk .confirmation f.chars = true →
     let ch := fun n => (f.chars.getD n 0).toNat
     ch 1 % 16 = s.own.val → ch 1 / 16 % 4 = p.val →
     let arb : Arbiter :=
       { s.arb with
         record := some { station := s.own, pump := p, rating := f.chars.getD 2 0, round := s.timer.count }
         window := s.arb.window.map (fun w => { w with notFree := true }) }
     (s.timer.mode ≠ .joining →
       exec (.frameArrival c inp) s = .next (follow (setCable c { s.line.cable c with assembly := none, frameMark := true }
         { s with inputs := inp, arb := arb, line := { s.line with check := s.line.check.afterActive f.chars } }))) ∧
     (s.timer.mode = .joining →
       ∃ r, ∃ t : State,
         t = setCable c { s.line.cable c with assembly := none, frameMark := true }
           { s with inputs := inp, timer := { s.timer with mode := .silent, reference := r }
                    arb := { arb with pendingStart := if s.arb.part = .won then none else s.arb.pendingStart }
                    line := { s.line with handed := none, tx := none, check := s.line.check.afterActive f.chars }
                    port := { s.port with flags := s.port.flags ||| 0b100000 } } ∧
         t.referenceChosen ∧ exec (.frameArrival c inp) s = .next (follow t)))

/-- FRAME_TRUNCATED, CHECK_COMPARISON_TIMEOUT and CHECK_PULSE_END: a truncated frame of good characters is a check failure, a
comparison that times out makes the round errored, and the pulse ends; with no frame under way or no open comparison nothing
happens (R142, R143, R145, R154, R155). -/
def Obligations.TruncationTimeoutAndPulseEndActOnTheLine : Prop :=
  ∀ s : State, s.cond = .running →
    (∀ (c : Cable) (f : Assembly), (s.line.cable c).assembly = some f → f.chars.length < f.kind.length →
      exec (.frameTruncated c) s =
        .next (follow (setCable c
          { s.line.cable c with
            assembly := none
            checkCount := if f.void = false ∧ (s.line.cable c).locked = true then min 255 ((s.line.cable c).checkCount + 1)
                          else (s.line.cable c).checkCount } s))) ∧
    (∀ c : Cable, (∀ f, (s.line.cable c).assembly = some f → f.kind.length ≤ f.chars.length) →
      exec (.frameTruncated c) s = .next (follow s)) ∧
    (s.line.check.opened = [] → exec .checkComparisonTimeout s = .next (follow s)) ∧
    (∀ o rest, s.line.check.opened = o :: rest →
      exec .checkComparisonTimeout s =
        .next (follow
          { s with line := { s.line with check := { s.line.check with opened := rest, roundErrored := true } } })) ∧
    exec .checkPulseEnd s =
      .next (follow { s with line := { s.line with check := { s.line.check with pulse := none } } })

/-! ### Pumps and players (chapters 5 and 6) -/

/-- PRIME_SENSE_ASSERTED in PRIMING begins the up play and the run's timers; in every other state it changes nothing (R86, R88,
R99, R108, R110, R111). -/
def Obligations.PrimeSenseBeginsTheRampUp : Prop :=
  ∀ (k : PumpIx) (s : State), s.cond = .running → ∃ u, u = { s with inputs := { s.inputs with
      primeSense := s.inputs.primeSense ||| BitVec.ofNat 4 (2 ^ k.val) } } ∧
    ((s.pump k).state ≠ .priming → exec (.primeSenseAsserted k) s = .next (follow u)) ∧
    ((s.pump k).state = .priming →
      let e := s.pointers[k]
      let first := s.profile[e.up]
      exec (.primeSenseAsserted k) s =
        .next (follow
          { u with
            pumps := s.pumps.set k
              { s.pump k with
                state := .rampUp, finishing := false, primeTimer := none, minRunTimer := some 300000000
                feedbackTimer := some 10000000, pastMinRun := false, supervised := false, missCount := 0
                secondTimer := some 1000000 }
            players := s.players.set k
              { playing := true, mode := some .oneShot, start := some e.up, step := some e.up, tick := some (100000 * e.rate)
                timeLeft := some (first.hold * (100000 * e.rate)), runaway := 0, finish := false, speed := first.speed } }))

/-- PRIME_TIMER_EXPIRY in PRIMING, and FEEDBACK_DUE_EXPIRY without RUN_FB in RAMP_UP or RUNNING, put the pump in FAULTED with
its cause, its outputs dropped and PUMP FAULT set; with RUN_FB asserted the pump is supervised (R87, R90, R93). A whole second of
the run complete at the fault counts (R99). The sampling mode and the watch of a start follow at once (R69, R135). -/
def Obligations.ExpiriesFaultThePump : Prop :=
  ∀ (k : PumpIx) (s : State), s.cond = .running →
    ((s.pump k).state = .priming → (s.pump k).primeTimer.isSome = true →
      ∃ t, exec (.primeTimerExpiry k) s = .next t ∧ t.pump k =
          { s.pump k with
            state := .faulted, cause := some .primeTimeout, finishing := false, primeTimer := none, feedbackTimer := none
            supervised := false, missCount := 0, minRunTimer := none, pastMinRun := false, restTimer := none
            secondTimer := none } ∧
        t.player k = Player.idle 0 ∧ t.drives.duty[k] = 0 ∧ t.valveOpen k = false ∧
        t.port = { s.port with flags := s.port.flags ||| 0b000010 } ∧
        (∀ j, j ≠ k → t.pump j = s.pump j ∧ t.player j = s.player j) ∧
        t = follow { s with pumps := t.pumps, players := t.players, drives := t.drives, port := t.port }) ∧
    (∀ runFb : Bool, (s.pump k).state = .rampUp ∨ (s.pump k).state = .running → (s.pump k).feedbackTimer.isSome = true →
      ∃ t, exec (.feedbackDueExpiry k runFb) s = .next t ∧
        (runFb = true → t.pump k = { s.pump k with feedbackTimer := none, supervised := true } ∧ t.players = s.players ∧
          t.port = s.port) ∧
        (runFb = false → t.pump k =
            { s.pump k with
              state := .faulted, cause := some .noFeedback, finishing := false, primeTimer := none, feedbackTimer := none
              supervised := false, missCount := 0, minRunTimer := none, pastMinRun := false, restTimer := none
              secondTimer := none, runMinutes := (t.pump k).runMinutes, accumulator := (t.pump k).accumulator } ∧
          (s.pump k).keepsWork (t.pump k) ∧ t.player k = Player.idle 0 ∧ t.drives.duty[k] = 0 ∧
          t.port = { s.port with flags := s.port.flags ||| 0b000010 }) ∧
        (∀ j, j ≠ k → t.pump j = s.pump j ∧ t.player j = s.player j) ∧ t.inputs.runFb.getLsbD k = runFb ∧
        t = follow { s with inputs := t.inputs, pumps := t.pumps, players := t.players, drives := t.drives, port := t.port })

/-- MINIMUM_RUN_EXPIRY sets past minimum run, REST_TIMER_EXPIRY brings a RESTING pump to IDLE or with hold pending to HELD, and
RUN_SECOND counts a second worked and at 60 a run minute, saturating (R91, R92, R97, R99). -/
def Obligations.RunAndRestTimersActAtTheirExpiry : Prop :=
  ∀ (k : PumpIx) (s : State), s.cond = .running →
    ((s.pump k).state = .rampUp ∨ (s.pump k).state = .running → (s.pump k).minRunTimer.isSome = true →
      exec (.minimumRunExpiry k) s =
        .next (follow (s.setPump k { s.pump k with minRunTimer := none, pastMinRun := true }))) ∧
    ((s.pump k).state = .resting → (s.pump k).restTimer.isSome = true → (s.pump k).holdPending = false →
      exec (.restTimerExpiry k) s = .next (follow (s.setPump k { s.pump k with state := .idle, restTimer := none }))) ∧
    ((s.pump k).state = .resting → (s.pump k).restTimer.isSome = true → (s.pump k).holdPending = true →
      exec (.restTimerExpiry k) s =
        .next (follow (s.setPump k { s.pump k with state := .held, holdPending := false, restTimer := none }))) ∧
    ((s.pump k).state = .rampUp ∨ (s.pump k).state = .running → (s.pump k).accumulator < 59 →
      exec (.runSecond k) s =
        .next (follow (s.setPump k
          { s.pump k with accumulator := (s.pump k).accumulator + 1, secondTimer := some 1000000 }))) ∧
    ((s.pump k).state = .rampUp ∨ (s.pump k).state = .running → 59 ≤ (s.pump k).accumulator →
      exec (.runSecond k) s =
        .next (follow (s.setPump k
          { s.pump k with
            accumulator := 0, runMinutes := min 16777215 ((s.pump k).runMinutes + 1), secondTimer := some 1000000 })))

/-- STEP_COMPLETION within a play: an unmarked step is followed by the next of the circle of 64, an end-marked step of a LOOP
play by the play's start with the runaway count at 0 (R105, R111, R115). STEP_COMPLETION at the end of a play: the end of
the up play leads to RUNNING, holding its speed where there is no run profile or looping it where there is one, or with
FINISHING to RAMP_DOWN; a finished run step leads to RAMP_DOWN, the end of the down play to RESTING, and the 64th unmarked
step faults the pump (R84, R88, R89, R92, R95, R112, R113, R115). A whole second of a run complete as its pump leaves it counts
(R99). The sampling mode and the watch of a start follow at once (R69, R135). -/
def Obligations.StepCompletionGoesOnOrEndsThePlay : Prop :=
  (∀ (k : PumpIx) (s : State) (cur begins : Fin 64) (tick : Nat), s.cond = .running → (s.player k).playing = true →
     (s.player k).step = some cur → (s.player k).start = some begins → (s.player k).tick = some tick →
     (s.player k).finish = false →
     ((s.profile[cur]).endMark = false → (s.player k).runaway < 63 → ∃ next : Fin 64, next.val = (cur.val + 1) % 64 ∧
       exec (.stepCompletion k) s =
         .next (follow (s.setPlayer k
           { s.player k with
             runaway := (s.player k).runaway + 1, step := some next, speed := (s.profile[next]).speed
             timeLeft := some ((s.profile[next]).hold * tick) }))) ∧
     ((s.profile[cur]).endMark = true → (s.player k).mode = some .loop →
       exec (.stepCompletion k) s =
         .next (follow (s.setPlayer k
           { s.player k with
             runaway := 0, step := some begins, speed := (s.profile[begins]).speed
             timeLeft := some ((s.profile[begins]).hold * tick) })))) ∧
  (∀ (k : PumpIx) (s : State) (cur : Fin 64), s.cond = .running → (s.player k).playing = true →
     (s.player k).step = some cur → ∃ t, exec (.stepCompletion k) s = .next t ∧
       let ends := ((s.profile[cur]).endMark = true ∧ (s.player k).mode = some .oneShot) ∨ (s.player k).finish = true
       let down := (t.pump k).state = .rampDown ∧ (t.pump k).finishing = false ∧ (t.pump k).minRunTimer = none ∧
         (t.pump k).feedbackTimer = none ∧ (t.pump k).holdPending = (s.pump k).holdPending ∧
         (t.player k).start = some (s.pointers[k]).down ∧ (t.player k).mode = some .oneShot ∧
         (t.player k).speed = (s.profile[(s.pointers[k]).down]).speed ∧
         (t.player k).tick = some (100000 * (s.pointers[k]).rate)
       (ends → (s.pump k).state = .rampUp → (s.pump k).finishing = false → (s.pointers[k]).run = none →
         t.pump k = { s.pump k with state := .running } ∧ t.player k = Player.idle (s.player k).speed) ∧
       (∀ i, ends → (s.pump k).state = .rampUp → (s.pump k).finishing = false → (s.pointers[k]).run = some i →
         t.pump k = { s.pump k with state := .running } ∧ (t.player k).mode = some .loop ∧ (t.player k).start = some i ∧
         (t.player k).step = some i ∧ (t.player k).speed = (s.profile[i]).speed) ∧
       (ends → (s.pump k).state = .rampUp ∨ (s.pump k).state = .running → (s.pump k).finishing = true → down) ∧
       (ends → (s.pump k).state = .rampDown →
         (t.pump k).state = .resting ∧ (t.pump k).restTimer = some 120000000 ∧ t.player k = Player.idle 0 ∧
         t.drives.duty[k] = 0) ∧
       ((s.profile[cur]).endMark = false → (s.player k).finish = false → 63 ≤ (s.player k).runaway →
         (s.pump k).state = .rampUp ∨ (s.pump k).state = .running ∨ (s.pump k).state = .rampDown →
         (t.pump k).state = .faulted ∧ (t.pump k).cause = some .profileFault ∧ t.player k = Player.idle 0 ∧
         t.drives.duty[k] = 0 ∧ t.port.flags.getLsbD 1 = true) ∧
       ((t.pump k).state = .rampDown ∨ (t.pump k).state = .faulted → (s.pump k).keepsWork (t.pump k)) ∧
       (∀ j, j ≠ k → t.pump j = s.pump j ∧ t.player j = s.player j) ∧
       t = follow { s with pumps := t.pumps, players := t.players, drives := t.drives, port := t.port })

/-- The drive outputs: a contactor is closed exactly in RAMP_UP, RUNNING or RAMP_DOWN with a speed above 0; a speed reference is
on for the first counts of its period up to its duty, as the model places them in a period common to all four (log 45, log 46),
and a new period begins after 1000 counts and takes the duty as ten times the speed in those states and as 0 in the others; the
valve is open in PRIMING alone (R101, R102). The arbitration word on the line: while the station contends, cell n of the window is
driven exactly where bit n + 1 of the word, most significant first, is 0, and after the seventh cell or a withdrawal it is not
(R68, R152, R178). ATTN is low exactly while running with a flag both pending and enabled, and in STRAP FAULT always; an event
sets its flag whatever the mask holds (R159, R162, R172, R173). While an own frame is under way, both cables carry its characters
back to back, each in eleven cells of 32 µs: a start bit driven, the data bits least significant first and released for 1, a
parity bit that makes the released ones even in number, and a stop bit released; after its last character they are released (R139,
R140, R151). CHECK is low exactly while running with a pulse under way (R155); each hop output carries its group's hop setting
(R121, R124). SDO carries the answer from the falling edge after the taking on, each character most significant bit first and 0x00
after its end, and is released while SSEL is high (R165). The pins are views of the state (log 25, log 30). -/
def Obligations.OutputPinsFollowTheState : Prop :=
  (∀ (k : PumpIx) (counts : Nat) (s : State), s.cond = .running →
     (s.valveOpen k = true ↔ (s.pump k).state = .priming) ∧
     (s.straps.pumps.val < 4 →
       (s.driveOn k = true ↔
         ((s.pump k).state = .rampUp ∨ (s.pump k).state = .running ∨ (s.pump k).state = .rampDown) ∧
           0 < (s.player k).speed)) ∧
     (4 ≤ s.straps.pumps.val → (s.driveOn k = true ↔ s.drives.position < s.drives.duty[k])) ∧
     (1000 ≤ s.drives.position + counts →
       (runDrives counts s).position = (s.drives.position + counts) % 1000 ∧
       (runDrives counts s).duty[k] =
         if (s.pump k).state = .rampUp ∨ (s.pump k).state = .running ∨ (s.pump k).state = .rampDown
         then 10 * (s.player k).speed else 0) ∧
     (s.drives.position + counts < 1000 →
       runDrives counts s = { duty := s.drives.duty, position := s.drives.position + counts })) ∧
  (∀ (s : State) (w : Window), s.cond = .running → s.line.tx = none → s.arb.window = some w →
     (s.arb.part = .contending → w.elapsed < 7000 →
       s.lineDriven = decide (w.word.toNat / 2 ^ (6 - w.elapsed / 1000) % 2 = 0)) ∧
     (s.arb.part ≠ .contending ∨ 7000 ≤ w.elapsed → s.lineDriven = false)) ∧
  (∀ (f : Attention) (s : State),
     (s.cond = .running → (s.attnLow = true ↔ ∃ i : Fin 6, s.port.flags.getLsbD i = true ∧ s.port.mask.getLsbD i = true)) ∧
     (s.cond = .strapFault → s.attnLow = true) ∧
     (s.cond = .strapReading ∨ (∃ κ, s.cond = .reset κ) → s.attnLow = false) ∧
     s.raise f = { s with port := { s.port with flags := s.port.flags ||| f.bit } }) ∧
  (∀ (s : State) (tx : Transmission), s.cond = .running → s.line.tx = some tx →
     s.arb.part ≠ .contending ∨ s.arb.window = none →
     (∀ c, tx.chars[tx.elapsed / 352]? = some c →
       let n := tx.elapsed % 352 / 32
       s.lineDriven =
         if n = 0 then true else if n ≤ 8 then !c.getLsbD (n - 1)
         else if n = 9 then decide (((List.range 8).countP (fun i => c.getLsbD i)) % 2 = 0) else false) ∧
     (352 * tx.chars.length ≤ tx.elapsed → s.lineDriven = false)) ∧
  (∀ s : State,
     (s.checkLow = true ↔ s.cond = .running ∧ s.line.check.pulse.isSome = true) ∧
     s.hopP = s.gauge.polder.hop ∧ s.hopO = s.gauge.outfall.hop) ∧
  (∀ (s : State) (cs : List Byte) (i n : Nat), n < 8 →
     (s.port.selected = true → s.port.answer = some cs → s.sdoBit (8 * i + n) = some ((cs.getD i 0).getLsbD (7 - n))) ∧
     (s.port.selected = false ∨ s.port.answer = none → s.sdoBit (8 * i + n) = none))

/-! ### Gauges (chapter 7) -/

/-- COUNTING_WINDOW_END: the counts of a window that is not void become the record's and the hop setting gains 1; a first window
with a code waits for its second, in the third pair too, and a dropped pair short of the third is followed by a new pair (R123,
R124, R125). COUNTING_WINDOW_END of an accepted pair: the second code is accepted, UNSTEADY and overflow are cleared, and the next
probe of the scan begins; P3 follows P2 only at a station with pump 2 or 3 fitted (R121, R125, R127). A third dropped pair marks
the probe UNSTEADY, leaves its code, and the next probe begins (R125). The last two are stated where a probe follows in the scan.
That the record takes the hop at the end of its window is the model's choice (log 36). -/
def Obligations.CountingWindowRecordsAndPairs : Prop :=
  (∀ (g : ProbeGroup) (probe reference : Nat) (s : State) (scan : Scan), s.cond = .running →
     (s.gauge.group g).scan = some scan →
     (scan.tried < 2 ∨ scan.first = none ∧ probe ≤ 65535 ∧ reference ≤ 65535) →
     (∀ f, scan.first = some f → 65535 < probe ∨ 65535 < reference ∨
       f + 4 < min 255 ((probe - reference) / 16) ∨ min 255 ((probe - reference) / 16) + 4 < f) →
     let void := decide (65535 < probe ∨ 65535 < reference)
     let r := s.gauge.probes[scan.probe]
     exec (.countingWindowEnd g probe reference) s =
       .next (follow (setGroup g
         { s.gauge.group g with
           hop := (s.gauge.group g).hop + 1
           scan := some (if void = false ∧ scan.first = none
             then { scan with first := some (min 255 ((probe - reference) / 16)), windowTime := 0 }
             else { scan with first := none, tried := scan.tried + 1, windowTime := 0 }) }
         (setProbe scan.probe
           { r with
             hop := (s.gauge.group g).hop, overflow := r.overflow || void
             counts := if void then r.counts else some (probe, reference) } s)))) ∧
  (∀ (g : ProbeGroup) (probe reference first : Nat) (s : State) (scan : Scan) (next : Fin 6), s.cond = .running →
     (s.gauge.group g).scan = some scan → scan.first = some first → probe ≤ 65535 → reference ≤ 65535 →
     let code := min 255 ((probe - reference) / 16)
     code ≤ first + 4 → first ≤ code + 4 →
     (scan.probe = 0 ∧ next = 1 ∨ scan.probe = 1 ∧ next = 2 ∨
       scan.probe = 2 ∧ next = 3 ∧ s.straps.pumps.val ∈ ([2, 3, 6, 7] : List Nat) ∨ scan.probe = 4 ∧ next = 5) →
     exec (.countingWindowEnd g probe reference) s =
       .next (follow (setGroup g
         { s.gauge.group g with
           hop := (s.gauge.group g).hop + 1, scan := some { probe := next, first := none, tried := 0, windowTime := 0 } }
         (setProbe scan.probe
           { lastCode := some code, counts := some (probe, reference), hop := (s.gauge.group g).hop, overflow := false,
             unsteady := false } s)))) ∧
  (∀ (g : ProbeGroup) (probe reference : Nat) (s : State) (scan : Scan) (next : Fin 6), s.cond = .running →
     (s.gauge.group g).scan = some scan → 2 ≤ scan.tried →
     let code := min 255 ((probe - reference) / 16)
     let void := decide (65535 < probe ∨ 65535 < reference)
     let r := s.gauge.probes[scan.probe]
     (void = true ∨ ∃ f, scan.first = some f ∧ (f + 4 < code ∨ code + 4 < f)) →
     (scan.probe = 0 ∧ next = 1 ∨ scan.probe = 1 ∧ next = 2 ∨
       scan.probe = 2 ∧ next = 3 ∧ s.straps.pumps.val ∈ ([2, 3, 6, 7] : List Nat) ∨ scan.probe = 4 ∧ next = 5) →
     exec (.countingWindowEnd g probe reference) s =
       .next (follow (setGroup g
         { s.gauge.group g with
           hop := (s.gauge.group g).hop + 1, scan := some { probe := next, first := none, tried := 0, windowTime := 0 } }
         (setProbe scan.probe
           { r with
             hop := (s.gauge.group g).hop, overflow := r.overflow || void, unsteady := true
             counts := if void then r.counts else some (probe, reference) } s))))

/-- The end of a scan by its last probe, whether the probe accepts a pair, which clears its overflow, or drops its third and is
UNSTEADY; the counts of a window that is not void and the hop of the window are recorded, and every other probe record stands (R123
to R125, R127; that the hop is recorded at the end of the window is log 36). A
polder reading forms the level, DISAGREE and the classes where a level probe is not UNSTEADY, and with them the flood alarm, and
otherwise leaves them all; each scanned sump is judged by its probe's accepted code and stands where its probe is UNSTEADY, sump B
only at a station with pump 2 or 3 fitted; a sump that becomes LOW stops its active pumps urgently at once (R99, R103, R127 to
R133). In CONTINUOUS mode the next scan begins (R135). An outfall reading forms its level and classes alike, and changes no flood
alarm, no sump and no pump (R134). -/
def Obligations.PolderReadingStopsPumpsOfALowSump : Prop :=
  ∀ (g : ProbeGroup) (probe reference : Nat) (s : State) (scan : Scan) (result : Option Nat), s.cond = .running →
    (s.gauge.group g).scan = some scan →
    (g = .polder ∧ scan.probe = 2 ∧ s.straps.pumps.val ∈ ([0, 1, 4, 5] : List Nat) ∨
      g = .polder ∧ scan.probe = 3 ∧ s.straps.pumps.val ∈ ([2, 3, 6, 7] : List Nat) ∨ g = .outfall ∧ scan.probe = 5) →
    let code := min 255 ((probe - reference) / 16)
    let void := decide (65535 < probe ∨ 65535 < reference)
    ((∃ f, scan.first = some f ∧ void = false ∧ code ≤ f + 4 ∧ f ≤ code + 4 ∧ result = some code) ∨
      (2 ≤ scan.tried ∧ (void = true ∨ ∃ f, scan.first = some f ∧ (f + 4 < code ∨ code + 4 < f)) ∧ result = none)) →
    ∃ t, exec (.countingWindowEnd g probe reference) s = .next t ∧
      let codeOf := fun (p : Fin 6) => if p = scan.probe ∧ result.isSome = true then result else (s.gauge.probes[p]).lastCode
      let unsteady := fun (p : Fin 6) => if p = scan.probe then result.isNone else (s.gauge.probes[p]).unsteady
      let first : Fin 6 := match g with | .polder => 0 | .outfall => 4
      let formed : Option (Nat × Bool) :=
        if unsteady first = true ∧ unsteady (first + 1) = true then none
        else match codeOf first, codeOf (first + 1) with
          | some x, some y => some (max x y, decide (x + 16 < y ∨ y + 16 < x))
          | some x, none => some (x, false)
          | none, some y => some (y, false)
          | none, none => none
      let was := s.gauge.group g
      let now := t.gauge.group g
      let judged := fun (u : Sump) (p : Fin 6) => if unsteady p = true then u else match codeOf p with
        | none => u
        | some x =>
          if u.low = true then (if 40 ≤ x then (if u.run = 0 then ⟨true, 1⟩ else ⟨false, 0⟩) else (⟨true, 0⟩ : Sump))
          else if x < 24 then (if u.run = 0 then ⟨false, 1⟩ else ⟨true, 0⟩) else ⟨false, 0⟩
      let becomesLow := fun (k : PumpIx) => (k.val < 2 ∧ s.gauge.sumpA.low = false ∧ t.gauge.sumpA.low = true) ∨
        (2 ≤ k.val ∧ s.gauge.sumpB.low = false ∧ t.gauge.sumpB.low = true)
      let last := s.gauge.probes[scan.probe]
      (∀ p : Fin 6, p ≠ scan.probe → t.gauge.probes[p] = s.gauge.probes[p]) ∧
      t.gauge.probes[scan.probe] =
        { lastCode := codeOf scan.probe, counts := if void = true then last.counts else some (probe, reference), hop := was.hop
          overflow := result.isNone && (last.overflow || void), unsteady := unsteady scan.probe } ∧
      now.hop = was.hop + 1 ∧
      (formed = none →
        now = { was with hop := now.hop, scan := now.scan } ∧ t.gauge.flood = s.gauge.flood ∧
        t.gauge.floodCount = s.gauge.floodCount ∧ t.port = s.port) ∧
      (∀ level disagree, formed = some (level, disagree) →
        let rising := rawClass s.straps.probe.val 0 level
        let falling := rawClass s.straps.probe.val 8 level
        let held := heldAfter was.heldClass was.lastRising was.lastFalling rising falling
        let count := if held = 7 then min 4 (s.gauge.floodCount + 1) else 0
        now.level = some level ∧ now.disagree = disagree ∧ now.heldClass = some held ∧ now.lastRising = some rising ∧
        now.lastFalling = some falling ∧
        (g = .polder → t.gauge.floodCount = count ∧
          t.gauge.flood = (if s.gauge.flood then decide (6 ≤ held.val) else decide (count = 4)) ∧
          t.port = (if t.gauge.flood = s.gauge.flood then s.port else { s.port with flags := s.port.flags ||| 0b000100 }))) ∧
      t.gauge.sumpA = (if g = .polder then judged s.gauge.sumpA 2 else s.gauge.sumpA) ∧
      t.gauge.sumpB = (if scan.probe = 3 then judged s.gauge.sumpB 3 else s.gauge.sumpB) ∧
      (g = .outfall → t.gauge.flood = s.gauge.flood ∧ t.gauge.floodCount = s.gauge.floodCount ∧ t.port = s.port ∧
        t.gauge.polder = { s.gauge.polder with scan := t.gauge.polder.scan }) ∧
      (g = .polder → t.gauge.outfall = { s.gauge.outfall with scan := t.gauge.outfall.scan }) ∧
      (∀ k : PumpIx, becomesLow k → s.pumpActive k →
        (t.pump k).state = .resting ∧ (t.pump k).restTimer = some 120000000 ∧ t.player k = Player.idle 0 ∧
        t.drives.duty[k] = 0 ∧ (s.pump k).keepsWork (t.pump k)) ∧
      (∀ k : PumpIx, ¬ (becomesLow k ∧ s.pumpActive k) → t.pump k = s.pump k ∧ t.player k = s.player k) ∧
      (t.gauge.sampling = .continuous →
        now.scan = some { probe := first, first := none, tried := 0, windowTime := 0 } ∨
          g = .outfall ∧ ¬ (1 ≤ s.straps.role.val ∧ s.straps.role.val ≤ 4)) ∧
      (t.gauge.sampling = .periodic → now.scan = none) ∧
      t = { s with pumps := t.pumps, players := t.players, drives := t.drives, port := t.port, arb := t.arb,
                   gauge := t.gauge }

/-- The classes of a level: the rising raw class counts the thresholds 16 + (16 + 2p) × i that the level reaches and the falling
one those it reaches within 8 codes; the held class rises to the smaller of two rising classes above it, falls to the larger of
two falling ones below it, and otherwise stands (R129, R130). -/
def Obligations.HeldClassMovesAfterTwoReadings : Prop :=
  (∀ p level n : Nat, p ≤ 7 → level ≤ 255 → 1 ≤ n → n ≤ 7 →
    (n ≤ (rawClass p 0 level).val ↔ 16 + (16 + 2 * p) * n ≤ level) ∧
    (n ≤ (rawClass p 8 level).val ↔ 16 + (16 + 2 * p) * n - 8 ≤ level)) ∧
  (∀ (lr lf : Option (Fin 8)) (rising falling : Fin 8), heldAfter none lr lf rising falling = rising) ∧
  (∀ h lr lf rising falling : Fin 8, rising ≤ falling →
    (h < rising → h < lr → heldAfter (some h) (some lr) (some lf) rising falling = min rising lr) ∧
    (falling < h → lf < h → heldAfter (some h) (some lr) (some lf) rising falling = max falling lf) ∧
    (¬ (h < rising ∧ h < lr) → ¬ (falling < h ∧ lf < h) →
      heldAfter (some h) (some lr) (some lf) rising falling = h))

/-! ### The service port (chapter 10) -/

/-- TRANSACTION_BEGIN opens a new transaction whatever the last left, and TRANSACTION_END discards what has not been clocked out;
while a reset lasts no transaction begins (R162, R165, R167). A service command outside a transaction, after another in the same
transaction, or while a reset lasts is not taken: nothing happens but that the pins READ ENTRY carries stand (R162, R165, log 5,
log 19). -/
def Obligations.TransactionsTakeOneCommandEach : Prop :=
  (∀ s : State,
     ((∀ κ, s.cond ≠ .reset κ) →
       exec .transactionBegin s = .next { s with port := { s.port with selected := true, answer := none } }) ∧
     (∀ κ, s.cond = .reset κ → exec .transactionBegin s = .next s) ∧
     exec .transactionEnd s = .next { s with port := { s.port with selected := false, answer := none } }) ∧
  (∀ (c : Instr) (code : Byte) (s : State), c.serviceCode = some code →
     (s.port.selected = false ∨ s.port.answer.isSome = true ∨ ∃ κ, s.cond = .reset κ) →
     exec c s = .next { s with inputs := s.pinsAfter c })

/-- The order of R168: while the straps are read every command answers BUSY, in STRAP FAULT every command but READ STATION answers
FAULT and READ STATION the fault form of its record, and a character that names no command answers UNKNOWN; none of these changes
anything else but the pins, which become those that READ ENTRY carries (R162, R168, R171, log 5). A character that names a command
is never taken as UNKNOWN (R168, log 39). -/
def Obligations.StatusIsJudgedByConditionFirst : Prop :=
  (∀ (code : Byte) (s : State), (parameterCount code).isSome = true → exec (.unknown code) s = .next s) ∧
  ∀ (c : Instr) (code : Byte) (s : State), WellFormed c = true → c.serviceCode = some code → s.port.selected = true →
    s.port.answer = none →
    (s.cond = .strapReading → exec c s = .next ({ s with inputs := s.pinsAfter c }.answering [statusBusy])) ∧
    (s.cond = .strapFault → c ≠ .readStation →
      exec c s = .next ({ s with inputs := s.pinsAfter c }.answering [statusFault])) ∧
    (s.cond = .strapFault → c = .readStation →
      exec c s = .next (s.answering
        ([statusOk, 0x01] ++
          [s.straps.stnHi, s.straps.stnLo, s.straps.pumps, s.straps.rating, s.straps.island, s.straps.role,
            s.straps.fallback, s.straps.probe].map (fun v => BitVec.ofNat 8 v.val) ++
          [BitVec.ofNat 8 ((if 2 ≤ s.straps.stnHi.val then 1 else 0) + (if 5 ≤ s.straps.role.val then 2 else 0)),
            s.port.flags.zeroExtend 8, s.port.mask.zeroExtend 8]))) ∧
    (s.cond = .running → c = .unknown code → exec c s = .next (s.answering [statusUnknown]))

/-- The five reads other than READ FLAG CHANGES answer OK with their record, character by character, or RANGE for an index out
of range, and change nothing but the answer (R22, R104, R138, R156, R166, R170, R180). The mode of the own entry carries no
aligned mark (log 18). The station record is stated in its running form. -/
def Obligations.ReadsAnswerTheirRecordAndChangeNothing : Prop :=
  (∀ s : State, s.takes →
     let n := fun (v : Nat) => BitVec.ofNat 8 v
     let bit := fun (i : Nat) (b : Bool) => if b then 2 ^ i else 0
     let two := fun (v : Nat) => [(BitVec.ofNat 16 v).extractLsb' 8 8, (BitVec.ofNat 16 v).extractLsb' 0 8]
     let round := fun (w : Option Word16) => [(w.getD 0).extractLsb' 8 8, (w.getD 0).extractLsb' 0 8]
     let seconds := fun (stopped : Nat) (t : Option Nat) =>
       match t with | none => stopped | some t => (t + 999999) / 1000000
     (∀ (k : Byte) (j : Station) (inp : Inputs), k.toNat = j.val →
       let own : Entry :=
         { status := .fresh, age := 0
           fields := some
             { mode := s.timer.mode, polderClass := s.gauge.polder.heldClass, flood := s.gauge.flood, demand := s.alloc.demand
               committed := s.committedDischarge, island := s.straps.island.val, offer := s.ownOffer, flags := inp.flags
               summary := s.ownSummary }
           startSeen := s.table.ownStartSeen, lastCount := some s.timer.count }
       let e := if j = s.own then own else s.table.entries[j]
       exec (.readEntry k inp) s = .next ({ s with inputs := inp }.answering
         ([statusOk, n (match e.status with | .empty => 0 | .fresh => 1 | .stale => 2 | .lost => 3), n e.age,
             n (bit 0 e.fields.isSome + bit 1 e.startSeen.isSome + bit 2 e.lastCount.isSome)] ++
           (match e.fields with
             | none => [0, 0, 0, 0, 0, 0, 0, 0]
             | some f =>
               [n (match f.mode with | .joining => 0 | .member => 1 | .isolated => 2 | .silent => 3),
                 n ((match f.polderClass with | some c => c.val | none => 15) + bit 7 f.flood), n f.demand, n f.committed,
                 n f.island, n (f.offer.getD 63), f.flags.zeroExtend 8, f.summary]) ++
           round e.startSeen ++ round e.lastCount))) ∧
     (∀ (k : Byte) (inp : Inputs), 16 ≤ k.toNat →
       exec (.readEntry k inp) s = .next ({ s with inputs := inp }.answering [statusRange])) ∧
     (∀ (k : Byte) (j : PumpIx), k.toNat = j.val →
       let p := s.pump j
       exec (.readPump k) s = .next (s.answering
         ([statusOk,
             n (match p.state with
               | .absent => 0 | .held => 1 | .idle => 2 | .resting => 3 | .priming => 4 | .rampUp => 5 | .running => 6
               | .rampDown => 7 | .faulted => 8),
             n (match p.cause with
               | none => 0 | some .primeTimeout => 1 | some .noFeedback => 2 | some .runLost => 3 | some .profileFault => 4),
             n (seconds 255 p.primeTimer), n (seconds 255 p.feedbackTimer)] ++
           two (seconds 65535 p.minRunTimer) ++
           [n (seconds 255 p.restTimer),
             n (bit 0 p.pastMinRun + bit 1 p.supervised + 4 * p.missCount + bit 5 p.finishing + bit 6 p.holdPending),
             (BitVec.ofNat 24 p.runMinutes).extractLsb' 16 8, (BitVec.ofNat 24 p.runMinutes).extractLsb' 8 8,
             (BitVec.ofNat 24 p.runMinutes).extractLsb' 0 8,
             n (match (s.player j).step with | some i => i.val | none => 255), n (s.player j).speed]))) ∧
     (∀ k : Byte, 4 ≤ k.toNat → exec (.readPump k) s = .next (s.answering [statusRange])) ∧
     (∀ (g p : Byte) (i : Fin 6), g = 0 ∧ p.toNat < 4 ∧ p.toNat = i.val ∨ g = 1 ∧ p.toNat < 2 ∧ p.toNat + 4 = i.val →
       let r := s.gauge.probes[i]
       exec (.readProbe g p) s = .next (s.answering
         ([statusOk,
             n (bit 0 r.lastCode.isSome + bit 1 r.counts.isSome + bit 2 r.overflow + bit 3 r.unsteady +
               bit 4 (if g = 0 then s.gauge.polder.disagree else s.gauge.outfall.disagree)),
             n (r.lastCode.getD 0)] ++
           two (r.counts.elim 0 (fun c => c.1)) ++ two (r.counts.elim 0 (fun c => c.2)) ++ [r.hop.zeroExtend 8]))) ∧
     (∀ g p : Byte, ¬ (g = 0 ∧ p.toNat < 4 ∨ g = 1 ∧ p.toNat < 2) →
       exec (.readProbe g p) s = .next (s.answering [statusRange])) ∧
     exec .readCables s = .next (s.answering
       [statusOk, n (match s.line.active with | .a => 0 | .b => 1), n (bit 0 s.line.a.locked + bit 1 s.line.b.locked),
         n s.line.a.parityCount, n s.line.a.checkCount, n s.line.b.parityCount, n s.line.b.checkCount,
         n (bit 0 s.line.check.running), n s.line.check.roundsLeft, n s.line.check.errored,
         n (match s.line.check.result with | .none => 0 | .pass => 1 | .fail => 2 | .aborted => 3)])) ∧
  (∀ s : State, s.takes → ∃ r, exec .readStation s = .next (s.answering (statusOk :: 0x00 :: r)) ∧
     let n := fun (v : Nat) => BitVec.ofNat 8 v
     let cls := fun (c : Option (Fin 8)) => match c with | some k => n k.val | none => n 15
     r.take 9 = [n s.straps.stnHi.val, n s.straps.stnLo.val, n s.straps.pumps.val, n s.straps.rating.val,
       n s.straps.island.val, n s.straps.role.val, n s.straps.fallback.val, n s.straps.probe.val, n s.own.val] ∧
     (r.drop 9).take 7 =
       [n ((match s.timer.mode with | .joining => 0 | .member => 1 | .isolated => 2 | .silent => 3) +
           (if s.timer.mode = .joining ∧ s.timer.aligned = true then 128 else 0)),
         s.timer.count.extractLsb' 8 8, s.timer.count.extractLsb' 0 8,
         (match s.timer.reference with | some k => n k.val | none => 0xFF),
         s.timer.realignCount.extractLsb' 8 8, s.timer.realignCount.extractLsb' 0 8,
         (match s.line.active with | .a => 0 | .b => 1)] ∧
     (r.drop 16).take 10 =
       [n s.alloc.qd, n s.alloc.entitlement, n s.alloc.demand, n s.alloc.target, n s.committedDischarge,
         (match s.alloc.startWanted with | some k => n k.val | none => 0xFF), s.table.accepted.zeroExtend 8,
         cls s.gauge.polder.heldClass, cls s.gauge.outfall.heldClass,
         n ((if s.gauge.flood then 1 else 0) + (if s.gauge.sumpA.low then 2 else 0) + (if s.gauge.sumpB.low then 4 else 0))] ∧
     r.drop 26 =
       [n s.arb.freeWindows, n s.arb.threshold, (match s.arb.lastResult with | .none => 0 | .win => 1 | .loss => 2)] ++
       (match s.arb.record with
         | none => [0xFF, 0, 0, 0, 0]
         | some w => [n w.station.val, n w.pump.val, w.rating, w.round.extractLsb' 8 8, w.round.extractLsb' 0 8]) ++
       [s.port.flags.zeroExtend 8, s.port.mask.zeroExtend 8])

/-- READ_FLAG_CHANGES answers both places and the overrun mark, then empties the queue and clears the mark, and leaves the
attention flags (R21, R180). -/
def Obligations.ReadFlagChangesEmptiesTheQueue : Prop :=
  ∀ s : State, s.takes →
    let place := fun (q : Option FlagRecord) => match q with
      | none => ([0, 0, 0] : List Byte)
      | some r => [r.flags.zeroExtend 8, r.round.extractLsb' 8 8, r.round.extractLsb' 0 8]
    exec .readFlagChanges s =
      .next ({ s with table := { s.table with queue := [], overrun := false } }.answering
        ([statusOk, BitVec.ofNat 8 (s.table.queue.length + (if s.table.overrun then 128 else 0))] ++
          place s.table.queue[0]? ++ place s.table.queue[1]?))

/-- WRITE_STEP: RANGE first, then BUSY while any player is PLAYING, then the step takes the three values (R117, R179).
WRITE_POINTERS: RANGE first, then BUSY while the pump's player is PLAYING, then the entry takes the four values (R118,
R179). -/
def Obligations.ProfileWritesAreJudgedRangeThenBusy : Prop :=
  (∀ (ix sp h m : Byte) (s : State), s.takes →
     (63 < ix.toNat ∨ 100 < sp.toNat ∨ h = 0 ∨ 1 < m.toNat → exec (.writeStep ix sp h m) s = .next (s.answering [statusRange])) ∧
     (∀ j : Fin 64, ix.toNat = j.val → sp.toNat ≤ 100 → h ≠ 0 → m.toNat ≤ 1 →
       ((∃ k, (s.player k).playing = true) → exec (.writeStep ix sp h m) s = .next (s.answering [statusBusy])) ∧
       ((∀ k, (s.player k).playing = false) →
         exec (.writeStep ix sp h m) s =
           .next ({ s with profile := s.profile.set j { speed := sp.toNat, hold := h.toNat, endMark := decide (m.toNat = 1) }
                  }.answering [statusOk])))) ∧
  (∀ (k u r d q : Byte) (s : State), s.takes →
     (3 < k.toNat ∨ 63 < u.toNat ∨ 63 < d.toNat ∨ (63 < r.toNat ∧ r ≠ 0xFF) ∨ q = 0 ∨ 8 < q.toNat →
       exec (.writePointers k u r d q) s = .next (s.answering [statusRange])) ∧
     (∀ (j : PumpIx) (up down : Fin 64) (run : Option (Fin 64)), k.toNat = j.val → u.toNat = up.val → d.toNat = down.val →
       (run = none ∧ r = 0xFF ∨ ∃ i, run = some i ∧ r.toNat = i.val) → 1 ≤ q.toNat → q.toNat ≤ 8 →
       ((s.player j).playing = true → exec (.writePointers k u r d q) s = .next (s.answering [statusBusy])) ∧
       ((s.player j).playing = false →
         exec (.writePointers k u r d q) s =
           .next ({ s with pointers := s.pointers.set j { up := up, run := run, down := down, rate := q.toNat }
                  }.answering [statusOk]))))

/-- HOLD_PUMP by the pump's state: HELD from IDLE and RESTING, hold pending with a stop that disregards minimum run from the
states of a start or a run, hold pending alone in RAMP_DOWN and FAULTED, nothing in HELD, RANGE otherwise (R84, R97, R99). That a
RESTING pump keeps a hold pending it already has is the model's choice (log 35). The sampling mode and the watch of a start follow
a change of the pump's state at once (R69, R135). -/
def Obligations.HoldPumpActsByThePumpsState : Prop :=
  ∀ (k : Byte) (j : PumpIx) (s : State), s.takes → k.toNat = j.val →
    let p := s.pump j
    let held := fun (q : Pump) => Host.Outcome.next (φ := Fault) (ρ := Refusal) ((follow (s.setPump j q)).answering [statusOk])
    (p.state = .idle → exec (.holdPump k) s = held { p with state := .held }) ∧
    (p.state = .resting → exec (.holdPump k) s = held { p with state := .held, restTimer := none }) ∧
    (p.state = .rampDown ∨ p.state = .faulted → exec (.holdPump k) s = held { p with holdPending := true }) ∧
    (p.state = .held → exec (.holdPump k) s = .next ((follow s).answering [statusOk])) ∧
    (p.state = .absent → exec (.holdPump k) s = .next (s.answering [statusRange])) ∧
    (p.state = .priming → ∃ t, exec (.holdPump k) s = .next t ∧ (t.pump j).state = .resting ∧
      (t.pump j).holdPending = true ∧ (t.pump j).restTimer = some 120000000 ∧ (t.pump j).primeTimer = none ∧
      t.valveOpen j = false ∧ t.port.answer = some [statusOk] ∧
      t = (follow { s with pumps := t.pumps, players := t.players, drives := t.drives }).answering [statusOk] ∧
      ∀ i, i ≠ j → t.pump i = s.pump i ∧ t.player i = s.player i) ∧
    (p.state = .rampUp ∨ p.state = .running → p.finishing = true → exec (.holdPump k) s = held { p with holdPending := true }) ∧
    (p.state = .rampUp ∨ p.state = .running → p.finishing = false → (s.player j).playing = true →
      exec (.holdPump k) s =
        .next ((follow (State.setPlayer j { s.player j with finish := true }
          (s.setPump j { p with holdPending := true, finishing := true }))).answering [statusOk])) ∧
    (p.state = .running → p.finishing = false → (s.player j).playing = false → ∃ t, exec (.holdPump k) s = .next t ∧
      (t.pump j).state = .rampDown ∧ (t.pump j).holdPending = true ∧ (t.pump j).finishing = false ∧
      p.keepsWork (t.pump j) ∧
      (t.player j).playing = true ∧ (t.player j).step = some (s.pointers[j]).down ∧ t.port.answer = some [statusOk] ∧
      t = (follow { s with pumps := t.pumps, players := t.players }).answering [statusOk] ∧
      ∀ i, i ≠ j → t.pump i = s.pump i ∧ t.player i = s.player i)

/-- RELEASE_PUMP, CLEAR_FAULT and SET_RUN_MINUTES act on the pump they name, and refuse with RANGE where R96, R98 and R100 say
so (R92, R96, R98, R100). A pump index above 3 is refused with RANGE by every command that names a pump, and a station
number above 15 by FORGET_ENTRY (R15, R96, R97, R98, R100). SET_RUN_MINUTES leaves the accumulator at 0; where the second that
completes a minute falls at the same instant and comes after it, that minute adds 1 to the new figure (R100, log 38). -/
def Obligations.ReleaseClearAndSetMinutesActOnTheirPump : Prop :=
  (∀ (k : Byte) (j : PumpIx) (m : BitVec 24) (s : State), s.takes → k.toNat = j.val →
     let p := s.pump j
     let rested := fun (q : Pump) (t : State) =>
       t.pump j = { q with state := .resting, finishing := false, primeTimer := none, feedbackTimer := none,
                           supervised := false, missCount := 0, minRunTimer := none, pastMinRun := false,
                           restTimer := some 120000000, secondTimer := none } ∧
       t.player j = Player.idle 0 ∧ t.drives.duty[j] = 0 ∧ t.port = { s.port with answer := some [statusOk] } ∧
       (∀ i, i ≠ j → t.pump i = s.pump i ∧ t.player i = s.player i) ∧
       t = { s with pumps := t.pumps, players := t.players, drives := t.drives, port := t.port }
     (p.state = .held → ∃ t, exec (.releasePump k) s = .next t ∧ rested p t) ∧
     (p.state ≠ .held → p.state ≠ .absent →
       exec (.releasePump k) s = .next ((s.setPump j { p with holdPending := false }).answering [statusOk])) ∧
     (p.state = .absent → exec (.releasePump k) s = .next (s.answering [statusRange])) ∧
     (p.state = .faulted → ∃ t, exec (.clearFault k) s = .next t ∧ rested { p with cause := none } t) ∧
     (p.state ≠ .faulted → exec (.clearFault k) s = .next (s.answering [statusRange])) ∧
     (p.state ≠ .absent →
       let completing := ((p.state = .rampUp ∨ p.state = .running) ∧ p.secondTimer = some 0) ∧ p.accumulator = 59
       (¬ completing →
         exec (.setRunMinutes k m) s =
           .next ((s.setPump j { p with runMinutes := m.toNat, accumulator := 0 }).answering [statusOk])) ∧
       (completing → ∃ t u, exec (.setRunMinutes k m) s = .next t ∧
         t = (s.setPump j { p with runMinutes := m.toNat, accumulator := 59 }).answering [statusOk] ∧
         exec (.runSecond j) t = .next u ∧ (u.pump j).runMinutes = min 16777215 (m.toNat + 1) ∧
         (u.pump j).accumulator = 0)) ∧
     (p.state = .absent → exec (.setRunMinutes k m) s = .next (s.answering [statusRange]))) ∧
  (∀ (k : Byte) (m : BitVec 24) (s : State), s.takes →
     (3 < k.toNat →
       exec (.holdPump k) s = .next (s.answering [statusRange]) ∧
       exec (.releasePump k) s = .next (s.answering [statusRange]) ∧
       exec (.clearFault k) s = .next (s.answering [statusRange]) ∧
       exec (.setRunMinutes k m) s = .next (s.answering [statusRange])) ∧
     (15 < k.toNat → exec (.forgetEntry k) s = .next (s.answering [statusRange])))

/-- SELECT_CABLE: RANGE for no cable, OK and nothing for the active one, the change to a LOCKED standby without CABLE SWITCH
and with a running check ABORTED, BUSY for an UNLOCKED one (R149, R155). START_CHECK and STOP_CHECK: RANGE for 0 rounds,
BUSY while the check is RUNNING, otherwise a new check; a stop aborts a RUNNING check with CHECK DONE and changes nothing
else (R153, R155). -/
def Obligations.SelectCableAndTheCableCheckCommands : Prop :=
  (∀ (c : Byte) (s : State), s.takes →
     (1 < c.toNat → exec (.selectCable c) s = .next (s.answering [statusRange])) ∧
     (∀ x : Cable, (c = 0 ∧ x = .a ∨ c = 1 ∧ x = .b) →
       (s.line.active = x → exec (.selectCable c) s = .next (s.answering [statusOk])) ∧
       (s.line.active ≠ x → (s.line.cable x).locked = false → exec (.selectCable c) s = .next (s.answering [statusBusy])) ∧
       (s.line.active ≠ x → (s.line.cable x).locked = true → s.line.check.running = false →
         exec (.selectCable c) s = .next ({ s with line := { s.line with active := x } }.answering [statusOk])) ∧
       (s.line.active ≠ x → (s.line.cable x).locked = true → s.line.check.running = true →
         ∃ t, exec (.selectCable c) s = .next t ∧ t.line.active = x ∧ t.line.check.running = false ∧
           t.line.check.result = .aborted ∧ t.line.check.errored = s.line.check.errored ∧ t.line.check.opened = [] ∧
           t.line.check.pulse = s.line.check.pulse ∧
           t.port = { s.port with flags := s.port.flags ||| 0b010000, answer := some [statusOk] } ∧
           t.line = { s.line with active := x, check := t.line.check } ∧ t = { s with line := t.line, port := t.port }))) ∧
  (∀ (n : Byte) (s : State), s.takes →
     (n = 0 → exec (.startCheck n) s = .next (s.answering [statusRange])) ∧
     (n ≠ 0 → s.line.check.running = true → exec (.startCheck n) s = .next (s.answering [statusBusy])) ∧
     (n ≠ 0 → s.line.check.running = false → ∃ t, exec (.startCheck n) s = .next t ∧ t.line.check.running = true ∧
       t.line.check.armed = false ∧ t.line.check.roundsLeft = n.toNat ∧ t.line.check.errored = 0 ∧
       t.line.check.result = .none ∧ t.line.check.pulse = s.line.check.pulse ∧
       t = ({ s with line := { s.line with check := t.line.check } }).answering [statusOk]) ∧
     (s.line.check.running = false → exec .stopCheck s = .next (s.answering [statusOk])) ∧
     (s.line.check.running = true → ∃ t, exec .stopCheck s = .next t ∧ t.line.check.running = false ∧
       t.line.check.result = .aborted ∧ t.line.check.errored = s.line.check.errored ∧ t.line.check.opened = [] ∧
       t.line.check.pulse = s.line.check.pulse ∧
       t.port = { s.port with flags := s.port.flags ||| 0b010000, answer := some [statusOk] } ∧
       t = { s with line := { s.line with check := t.line.check }, port := t.port }))

/-- FORGET_ENTRY empties a LOST entry and no other, and refuses the own number (R15); CLEAR_COUNTERS zeroes the four error
counters and clears the overflow flags and nothing else (R126, R145). -/
def Obligations.ForgetEntryAndClearCountersClearWhatTheyName : Prop :=
  ∀ (k : Byte) (j : Station) (s : State), s.takes → k.toNat = j.val →
    (j ≠ s.own → (s.table.entries[j]).status = .lost →
      exec (.forgetEntry k) s =
        .next ((s.setEntry j { status := .empty, age := 255, fields := none, startSeen := none, lastCount := none
                             }).answering [statusOk])) ∧
    (j = s.own ∨ (s.table.entries[j]).status ≠ .lost → exec (.forgetEntry k) s = .next (s.answering [statusRange])) ∧
    (∃ t, exec .clearCounters s = .next t ∧
      t.line = { s.line with a := { s.line.a with parityCount := 0, checkCount := 0 },
                             b := { s.line.b with parityCount := 0, checkCount := 0 } } ∧
      (∀ p : Fin 6, t.gauge.probes[p] = { s.gauge.probes[p] with overflow := false }) ∧
      t.gauge = { s.gauge with probes := t.gauge.probes } ∧
      t = ({ s with line := t.line, gauge := t.gauge }).answering [statusOk])

/-- SET_ATTENTION_MASK replaces the whole mask and leaves the pending flags, ATTN follows at once, a character with bit 6 or 7
set is refused, and an event that sets a flag at the same instant ends alike in either order (R174). -/
def Obligations.AttentionMaskIsReplacedWhole : Prop :=
  ∀ (m : Byte) (s : State), s.takes →
    (64 ≤ m.toNat → exec (.setAttentionMask m) s = .next (s.answering [statusRange])) ∧
    (m.toNat < 64 → ∃ t, exec (.setAttentionMask m) s = .next t ∧
      t = { s with port := { s.port with mask := BitVec.ofNat 6 m.toNat, answer := some [statusOk] } } ∧
      (t.attnLow = true ↔ ∃ i : Fin 6, s.port.flags.getLsbD i = true ∧ m.getLsbD i = true) ∧
      ∀ f : Attention, exec (.setAttentionMask m) (s.raise f) = .next (t.raise f))

/-- CLEAR_ATTENTION clears the marked flags and no other, refuses a character with bit 6 or 7 set, and meets an event of a marked
flag by their order: the event first leaves the flag clear, the command first leaves it pending (R175). -/
def Obligations.ClearAttentionClearsTheMarkedFlags : Prop :=
  ∀ (m : Byte) (s : State), s.takes →
    (64 ≤ m.toNat → exec (.clearAttention m) s = .next (s.answering [statusRange])) ∧
    (m.toNat < 64 → ∃ t, exec (.clearAttention m) s = .next t ∧
      (∀ i : Fin 6, t.port.flags.getLsbD i = (s.port.flags.getLsbD i && !m.getLsbD i)) ∧
      t = { s with port := { s.port with flags := t.port.flags, answer := some [statusOk] } } ∧
      (∀ f : Attention, f.bit &&& BitVec.ofNat 6 m.toNat = f.bit → exec (.clearAttention m) (s.raise f) = .next t) ∧
      ∀ f : Attention, (t.raise f).port.flags &&& f.bit = f.bit)

/-! ### Headlines -/

/-- The characters of every well-formed service command, with all its operands, are read back as that command, and so is a word
that carries them, the first in its low eight bits (R165, R169, R179). The bits of these characters, each clocked most significant
first, have the command taken at the last of them, whatever is clocked after it, and not before: a transaction that ends at the
last bit or later holds the command, and one that ends before holds none (R165, R167, R168). READ ENTRY's pins are those at the
taking (log 5); the order of the characters in a word is the model's (log 6). -/
def Obligations.ServiceCharactersReadBackAsTheCommand : Prop :=
  ∀ (i : Instr) (cs : List Byte) (inp : Inputs), WellFormed i = true → i.serviceCharacters = some cs →
    (∀ k p, i = .readEntry k p → p = inp) →
    serviceCommand inp cs = some i ∧
      wordCommand inp (8 * cs.length) (cs.foldr (fun c w => c.toNat + 256 * w) 0) = some i ∧
      (∀ nbits, nbits < 8 * cs.length → wordCommand inp nbits (cs.foldr (fun c w => c.toNat + 256 * w) 0) = none) ∧
      (let bits := cs.flatMap (fun c => [7, 6, 5, 4, 3, 2, 1, 0].map (fun n => c.getLsbD n))
       (∀ more : List Bool, clockedCommand inp (bits ++ more) = some i ∧
         transaction inp (bits ++ more) = [.transactionBegin, i, .transactionEnd]) ∧
       (∀ n, n < 8 * cs.length → clockedCommand inp (bits.take n) = none ∧
         transaction inp (bits.take n) = [.transactionBegin, .transactionEnd]))

/-- Every step keeps the district table sound: each entry is EMPTY with nothing in it or holds all its fields with the status of
its age, and the flag change queue never holds more than two records (R1, R2, R20). -/
def Obligations.EveryStepKeepsTheTableSound : Prop :=
  ∀ s t : State, s.tableSound → step s = .next t → t.tableSound

/-- Every step keeps profiles, players and pumps sound: timers, marks and causes stand only in the states of their rules, a ramp
always plays, and outside RAMP_UP, RUNNING and RAMP_DOWN no play runs and the speed reference is off (R80 to R101, R105 to
R115). That the records stand as a reset leaves them before the blocks run is log 7. -/
def Obligations.EveryStepKeepsThePumpsSound : Prop :=
  ∀ s t : State, s.pumpsSound → step s = .next t → t.pumpsSound

/-- Every step keeps the laws that while F1 DISTRICT STOP is accepted no pump is active (R19) and that while a sump is LOW no
pump of it is in PRIMING, RAMP_UP or RUNNING (R103). -/
def Obligations.EveryStepKeepsTheStopLaws : Prop :=
  (∀ s t : State, s.districtStopHolds → step s = .next t → t.districtStopHolds) ∧
    (∀ s t : State, s.lowSumpHolds → step s = .next t → t.lowSumpHolds)

/-- Every step keeps the error counters within 255, and at 0 whenever their cable is UNLOCKED (R145), and the arbiter's and the
allocation unit's counts in their ranges with no pending start outside CONTENDING and WON (R43, R46, R63). -/
def Obligations.EveryStepKeepsCountersAndArbiterSound : Prop :=
  (∀ s t : State, s.cablesSound → step s = .next t → t.cablesSound) ∧
    (∀ s t : State, s.arbiterSound → step s = .next t → t.arbiterSound)

/-- SILENT is left by a reset alone, and a station in SILENT has nothing to send (R39): every step from a running SILENT station
that does not take a reset leaves it SILENT, and keeps it without frame, announcement or arbitration word. -/
def Obligations.SilenceLastsUntilAReset : Prop :=
  (∀ s t : State, s.silenceHolds → step s = .next t → t.silenceHolds) ∧
    (∀ s t : State, s.cond = .running → s.timer.mode = .silent → step s = .next t →
      t.timer.mode = .silent ∨ ∃ κ, t.cond = .reset κ)

/-- The machine right after reset meets every invariant of the headlines, and what every event leaves followed (log 6, log 7). -/
def Obligations.ResetMeetsEveryInvariant : Prop :=
  State.reset.tableSound ∧ State.reset.pumpsSound ∧ State.reset.districtStopHolds ∧ State.reset.lowSumpHolds ∧
    State.reset.cablesSound ∧ State.reset.arbiterSound ∧ State.reset.silenceHolds ∧ State.reset.followed
end

