-- ==== Sys2Proof/Laws/State.lean ====
section
/-! SUPPORT. One lemma for each field and each update of the state: the fields an update leaves alone, and what it writes. -/

namespace Sys2Proof.Machine

open Sys2Proof

/-! `State.raise` writes `port` alone. -/

@[simp] theorem State.raise_cond (f : Attention) (s : State) : (s.raise f).cond = s.cond := rfl

@[simp] theorem State.raise_strapTime (f : Attention) (s : State) : (s.raise f).strapTime = s.strapTime := rfl

@[simp] theorem State.raise_straps (f : Attention) (s : State) : (s.raise f).straps = s.straps := rfl

@[simp] theorem State.raise_strapPins (f : Attention) (s : State) : (s.raise f).strapPins = s.strapPins := rfl

@[simp] theorem State.raise_inputs (f : Attention) (s : State) : (s.raise f).inputs = s.inputs := rfl

@[simp] theorem State.raise_table (f : Attention) (s : State) : (s.raise f).table = s.table := rfl

@[simp] theorem State.raise_timer (f : Attention) (s : State) : (s.raise f).timer = s.timer := rfl

@[simp] theorem State.raise_alloc (f : Attention) (s : State) : (s.raise f).alloc = s.alloc := rfl

@[simp] theorem State.raise_arb (f : Attention) (s : State) : (s.raise f).arb = s.arb := rfl

@[simp] theorem State.raise_pumps (f : Attention) (s : State) : (s.raise f).pumps = s.pumps := rfl

@[simp] theorem State.raise_players (f : Attention) (s : State) : (s.raise f).players = s.players := rfl

@[simp] theorem State.raise_profile (f : Attention) (s : State) : (s.raise f).profile = s.profile := rfl

@[simp] theorem State.raise_pointers (f : Attention) (s : State) : (s.raise f).pointers = s.pointers := rfl

@[simp] theorem State.raise_drives (f : Attention) (s : State) : (s.raise f).drives = s.drives := rfl

@[simp] theorem State.raise_gauge (f : Attention) (s : State) : (s.raise f).gauge = s.gauge := rfl

@[simp] theorem State.raise_line (f : Attention) (s : State) : (s.raise f).line = s.line := rfl

@[simp] theorem State.raise_free (f : Attention) (s : State) : (s.raise f).free = s.free := rfl

@[simp] theorem State.raise_pending (f : Attention) (s : State) : (s.raise f).pending = s.pending := rfl

/-! `State.setPump` writes `pumps` alone. -/

@[simp] theorem State.setPump_cond (k : PumpIx) (p : Pump) (s : State) : (s.setPump k p).cond = s.cond := rfl

@[simp] theorem State.setPump_strapTime (k : PumpIx) (p : Pump) (s : State) : (s.setPump k p).strapTime = s.strapTime := rfl

@[simp] theorem State.setPump_straps (k : PumpIx) (p : Pump) (s : State) : (s.setPump k p).straps = s.straps := rfl

@[simp] theorem State.setPump_strapPins (k : PumpIx) (p : Pump) (s : State) : (s.setPump k p).strapPins = s.strapPins := rfl

@[simp] theorem State.setPump_inputs (k : PumpIx) (p : Pump) (s : State) : (s.setPump k p).inputs = s.inputs := rfl

@[simp] theorem State.setPump_table (k : PumpIx) (p : Pump) (s : State) : (s.setPump k p).table = s.table := rfl

@[simp] theorem State.setPump_timer (k : PumpIx) (p : Pump) (s : State) : (s.setPump k p).timer = s.timer := rfl

@[simp] theorem State.setPump_alloc (k : PumpIx) (p : Pump) (s : State) : (s.setPump k p).alloc = s.alloc := rfl

@[simp] theorem State.setPump_arb (k : PumpIx) (p : Pump) (s : State) : (s.setPump k p).arb = s.arb := rfl

@[simp] theorem State.setPump_players (k : PumpIx) (p : Pump) (s : State) : (s.setPump k p).players = s.players := rfl

@[simp] theorem State.setPump_profile (k : PumpIx) (p : Pump) (s : State) : (s.setPump k p).profile = s.profile := rfl

@[simp] theorem State.setPump_pointers (k : PumpIx) (p : Pump) (s : State) : (s.setPump k p).pointers = s.pointers := rfl

@[simp] theorem State.setPump_drives (k : PumpIx) (p : Pump) (s : State) : (s.setPump k p).drives = s.drives := rfl

@[simp] theorem State.setPump_gauge (k : PumpIx) (p : Pump) (s : State) : (s.setPump k p).gauge = s.gauge := rfl

@[simp] theorem State.setPump_line (k : PumpIx) (p : Pump) (s : State) : (s.setPump k p).line = s.line := rfl

@[simp] theorem State.setPump_port (k : PumpIx) (p : Pump) (s : State) : (s.setPump k p).port = s.port := rfl

@[simp] theorem State.setPump_free (k : PumpIx) (p : Pump) (s : State) : (s.setPump k p).free = s.free := rfl

@[simp] theorem State.setPump_pending (k : PumpIx) (p : Pump) (s : State) : (s.setPump k p).pending = s.pending := rfl

/-! `State.setPlayer` writes `players` alone. -/

@[simp] theorem State.setPlayer_cond (k : PumpIx) (p : Player) (s : State) : (s.setPlayer k p).cond = s.cond := rfl

@[simp] theorem State.setPlayer_strapTime (k : PumpIx) (p : Player) (s : State) : (s.setPlayer k p).strapTime = s.strapTime := rfl

@[simp] theorem State.setPlayer_straps (k : PumpIx) (p : Player) (s : State) : (s.setPlayer k p).straps = s.straps := rfl

@[simp] theorem State.setPlayer_strapPins (k : PumpIx) (p : Player) (s : State) : (s.setPlayer k p).strapPins = s.strapPins := rfl

@[simp] theorem State.setPlayer_inputs (k : PumpIx) (p : Player) (s : State) : (s.setPlayer k p).inputs = s.inputs := rfl

@[simp] theorem State.setPlayer_table (k : PumpIx) (p : Player) (s : State) : (s.setPlayer k p).table = s.table := rfl

@[simp] theorem State.setPlayer_timer (k : PumpIx) (p : Player) (s : State) : (s.setPlayer k p).timer = s.timer := rfl

@[simp] theorem State.setPlayer_alloc (k : PumpIx) (p : Player) (s : State) : (s.setPlayer k p).alloc = s.alloc := rfl

@[simp] theorem State.setPlayer_arb (k : PumpIx) (p : Player) (s : State) : (s.setPlayer k p).arb = s.arb := rfl

@[simp] theorem State.setPlayer_pumps (k : PumpIx) (p : Player) (s : State) : (s.setPlayer k p).pumps = s.pumps := rfl

@[simp] theorem State.setPlayer_profile (k : PumpIx) (p : Player) (s : State) : (s.setPlayer k p).profile = s.profile := rfl

@[simp] theorem State.setPlayer_pointers (k : PumpIx) (p : Player) (s : State) : (s.setPlayer k p).pointers = s.pointers := rfl

@[simp] theorem State.setPlayer_drives (k : PumpIx) (p : Player) (s : State) : (s.setPlayer k p).drives = s.drives := rfl

@[simp] theorem State.setPlayer_gauge (k : PumpIx) (p : Player) (s : State) : (s.setPlayer k p).gauge = s.gauge := rfl

@[simp] theorem State.setPlayer_line (k : PumpIx) (p : Player) (s : State) : (s.setPlayer k p).line = s.line := rfl

@[simp] theorem State.setPlayer_port (k : PumpIx) (p : Player) (s : State) : (s.setPlayer k p).port = s.port := rfl

@[simp] theorem State.setPlayer_free (k : PumpIx) (p : Player) (s : State) : (s.setPlayer k p).free = s.free := rfl

@[simp] theorem State.setPlayer_pending (k : PumpIx) (p : Player) (s : State) : (s.setPlayer k p).pending = s.pending := rfl

/-! `State.setEntry` writes `table` alone. -/

@[simp] theorem State.setEntry_cond (k : Station) (e : Entry) (s : State) : (s.setEntry k e).cond = s.cond := rfl

@[simp] theorem State.setEntry_strapTime (k : Station) (e : Entry) (s : State) : (s.setEntry k e).strapTime = s.strapTime := rfl

@[simp] theorem State.setEntry_straps (k : Station) (e : Entry) (s : State) : (s.setEntry k e).straps = s.straps := rfl

@[simp] theorem State.setEntry_strapPins (k : Station) (e : Entry) (s : State) : (s.setEntry k e).strapPins = s.strapPins := rfl

@[simp] theorem State.setEntry_inputs (k : Station) (e : Entry) (s : State) : (s.setEntry k e).inputs = s.inputs := rfl

@[simp] theorem State.setEntry_timer (k : Station) (e : Entry) (s : State) : (s.setEntry k e).timer = s.timer := rfl

@[simp] theorem State.setEntry_alloc (k : Station) (e : Entry) (s : State) : (s.setEntry k e).alloc = s.alloc := rfl

@[simp] theorem State.setEntry_arb (k : Station) (e : Entry) (s : State) : (s.setEntry k e).arb = s.arb := rfl

@[simp] theorem State.setEntry_pumps (k : Station) (e : Entry) (s : State) : (s.setEntry k e).pumps = s.pumps := rfl

@[simp] theorem State.setEntry_players (k : Station) (e : Entry) (s : State) : (s.setEntry k e).players = s.players := rfl

@[simp] theorem State.setEntry_profile (k : Station) (e : Entry) (s : State) : (s.setEntry k e).profile = s.profile := rfl

@[simp] theorem State.setEntry_pointers (k : Station) (e : Entry) (s : State) : (s.setEntry k e).pointers = s.pointers := rfl

@[simp] theorem State.setEntry_drives (k : Station) (e : Entry) (s : State) : (s.setEntry k e).drives = s.drives := rfl

@[simp] theorem State.setEntry_gauge (k : Station) (e : Entry) (s : State) : (s.setEntry k e).gauge = s.gauge := rfl

@[simp] theorem State.setEntry_line (k : Station) (e : Entry) (s : State) : (s.setEntry k e).line = s.line := rfl

@[simp] theorem State.setEntry_port (k : Station) (e : Entry) (s : State) : (s.setEntry k e).port = s.port := rfl

@[simp] theorem State.setEntry_free (k : Station) (e : Entry) (s : State) : (s.setEntry k e).free = s.free := rfl

@[simp] theorem State.setEntry_pending (k : Station) (e : Entry) (s : State) : (s.setEntry k e).pending = s.pending := rfl

/-! `dropDrive` writes `drives` alone. -/

@[simp] theorem dropDrive_cond (k : PumpIx) (s : State) : (dropDrive k s).cond = s.cond := rfl

@[simp] theorem dropDrive_strapTime (k : PumpIx) (s : State) : (dropDrive k s).strapTime = s.strapTime := rfl

@[simp] theorem dropDrive_straps (k : PumpIx) (s : State) : (dropDrive k s).straps = s.straps := rfl

@[simp] theorem dropDrive_strapPins (k : PumpIx) (s : State) : (dropDrive k s).strapPins = s.strapPins := rfl

@[simp] theorem dropDrive_inputs (k : PumpIx) (s : State) : (dropDrive k s).inputs = s.inputs := rfl

@[simp] theorem dropDrive_table (k : PumpIx) (s : State) : (dropDrive k s).table = s.table := rfl

@[simp] theorem dropDrive_timer (k : PumpIx) (s : State) : (dropDrive k s).timer = s.timer := rfl

@[simp] theorem dropDrive_alloc (k : PumpIx) (s : State) : (dropDrive k s).alloc = s.alloc := rfl

@[simp] theorem dropDrive_arb (k : PumpIx) (s : State) : (dropDrive k s).arb = s.arb := rfl

@[simp] theorem dropDrive_pumps (k : PumpIx) (s : State) : (dropDrive k s).pumps = s.pumps := rfl

@[simp] theorem dropDrive_players (k : PumpIx) (s : State) : (dropDrive k s).players = s.players := rfl

@[simp] theorem dropDrive_profile (k : PumpIx) (s : State) : (dropDrive k s).profile = s.profile := rfl

@[simp] theorem dropDrive_pointers (k : PumpIx) (s : State) : (dropDrive k s).pointers = s.pointers := rfl

@[simp] theorem dropDrive_gauge (k : PumpIx) (s : State) : (dropDrive k s).gauge = s.gauge := rfl

@[simp] theorem dropDrive_line (k : PumpIx) (s : State) : (dropDrive k s).line = s.line := rfl

@[simp] theorem dropDrive_port (k : PumpIx) (s : State) : (dropDrive k s).port = s.port := rfl

@[simp] theorem dropDrive_free (k : PumpIx) (s : State) : (dropDrive k s).free = s.free := rfl

@[simp] theorem dropDrive_pending (k : PumpIx) (s : State) : (dropDrive k s).pending = s.pending := rfl

/-! `cutPlay` writes `players` alone. -/

@[simp] theorem cutPlay_cond (k : PumpIx) (s : State) : (cutPlay k s).cond = s.cond := rfl

@[simp] theorem cutPlay_strapTime (k : PumpIx) (s : State) : (cutPlay k s).strapTime = s.strapTime := rfl

@[simp] theorem cutPlay_straps (k : PumpIx) (s : State) : (cutPlay k s).straps = s.straps := rfl

@[simp] theorem cutPlay_strapPins (k : PumpIx) (s : State) : (cutPlay k s).strapPins = s.strapPins := rfl

@[simp] theorem cutPlay_inputs (k : PumpIx) (s : State) : (cutPlay k s).inputs = s.inputs := rfl

@[simp] theorem cutPlay_table (k : PumpIx) (s : State) : (cutPlay k s).table = s.table := rfl

@[simp] theorem cutPlay_timer (k : PumpIx) (s : State) : (cutPlay k s).timer = s.timer := rfl

@[simp] theorem cutPlay_alloc (k : PumpIx) (s : State) : (cutPlay k s).alloc = s.alloc := rfl

@[simp] theorem cutPlay_arb (k : PumpIx) (s : State) : (cutPlay k s).arb = s.arb := rfl

@[simp] theorem cutPlay_pumps (k : PumpIx) (s : State) : (cutPlay k s).pumps = s.pumps := rfl

@[simp] theorem cutPlay_profile (k : PumpIx) (s : State) : (cutPlay k s).profile = s.profile := rfl

@[simp] theorem cutPlay_pointers (k : PumpIx) (s : State) : (cutPlay k s).pointers = s.pointers := rfl

@[simp] theorem cutPlay_drives (k : PumpIx) (s : State) : (cutPlay k s).drives = s.drives := rfl

@[simp] theorem cutPlay_gauge (k : PumpIx) (s : State) : (cutPlay k s).gauge = s.gauge := rfl

@[simp] theorem cutPlay_line (k : PumpIx) (s : State) : (cutPlay k s).line = s.line := rfl

@[simp] theorem cutPlay_port (k : PumpIx) (s : State) : (cutPlay k s).port = s.port := rfl

@[simp] theorem cutPlay_free (k : PumpIx) (s : State) : (cutPlay k s).free = s.free := rfl

@[simp] theorem cutPlay_pending (k : PumpIx) (s : State) : (cutPlay k s).pending = s.pending := rfl

/-! `beginPlay` writes `players` alone. -/

@[simp] theorem beginPlay_cond (k : PumpIx) (m : PlayMode) (i : Fin 64) (s : State) : (beginPlay k m i s).cond = s.cond := rfl

@[simp] theorem beginPlay_strapTime (k : PumpIx) (m : PlayMode) (i : Fin 64) (s : State) : (beginPlay k m i s).strapTime = s.strapTime := rfl

@[simp] theorem beginPlay_straps (k : PumpIx) (m : PlayMode) (i : Fin 64) (s : State) : (beginPlay k m i s).straps = s.straps := rfl

@[simp] theorem beginPlay_strapPins (k : PumpIx) (m : PlayMode) (i : Fin 64) (s : State) : (beginPlay k m i s).strapPins = s.strapPins := rfl

@[simp] theorem beginPlay_inputs (k : PumpIx) (m : PlayMode) (i : Fin 64) (s : State) : (beginPlay k m i s).inputs = s.inputs := rfl

@[simp] theorem beginPlay_table (k : PumpIx) (m : PlayMode) (i : Fin 64) (s : State) : (beginPlay k m i s).table = s.table := rfl

@[simp] theorem beginPlay_timer (k : PumpIx) (m : PlayMode) (i : Fin 64) (s : State) : (beginPlay k m i s).timer = s.timer := rfl

@[simp] theorem beginPlay_alloc (k : PumpIx) (m : PlayMode) (i : Fin 64) (s : State) : (beginPlay k m i s).alloc = s.alloc := rfl

@[simp] theorem beginPlay_arb (k : PumpIx) (m : PlayMode) (i : Fin 64) (s : State) : (beginPlay k m i s).arb = s.arb := rfl

@[simp] theorem beginPlay_pumps (k : PumpIx) (m : PlayMode) (i : Fin 64) (s : State) : (beginPlay k m i s).pumps = s.pumps := rfl

@[simp] theorem beginPlay_profile (k : PumpIx) (m : PlayMode) (i : Fin 64) (s : State) : (beginPlay k m i s).profile = s.profile := rfl

@[simp] theorem beginPlay_pointers (k : PumpIx) (m : PlayMode) (i : Fin 64) (s : State) : (beginPlay k m i s).pointers = s.pointers := rfl

@[simp] theorem beginPlay_drives (k : PumpIx) (m : PlayMode) (i : Fin 64) (s : State) : (beginPlay k m i s).drives = s.drives := rfl

@[simp] theorem beginPlay_gauge (k : PumpIx) (m : PlayMode) (i : Fin 64) (s : State) : (beginPlay k m i s).gauge = s.gauge := rfl

@[simp] theorem beginPlay_line (k : PumpIx) (m : PlayMode) (i : Fin 64) (s : State) : (beginPlay k m i s).line = s.line := rfl

@[simp] theorem beginPlay_port (k : PumpIx) (m : PlayMode) (i : Fin 64) (s : State) : (beginPlay k m i s).port = s.port := rfl

@[simp] theorem beginPlay_free (k : PumpIx) (m : PlayMode) (i : Fin 64) (s : State) : (beginPlay k m i s).free = s.free := rfl

@[simp] theorem beginPlay_pending (k : PumpIx) (m : PlayMode) (i : Fin 64) (s : State) : (beginPlay k m i s).pending = s.pending := rfl

/-! `setCable` writes `line` alone. -/

@[simp] theorem setCable_cond (c : Cable) (x : CableState) (s : State) : (setCable c x s).cond = s.cond := by cases c <;> rfl

@[simp] theorem setCable_strapTime (c : Cable) (x : CableState) (s : State) : (setCable c x s).strapTime = s.strapTime := by cases c <;> rfl

@[simp] theorem setCable_straps (c : Cable) (x : CableState) (s : State) : (setCable c x s).straps = s.straps := by cases c <;> rfl

@[simp] theorem setCable_strapPins (c : Cable) (x : CableState) (s : State) : (setCable c x s).strapPins = s.strapPins := by cases c <;> rfl

@[simp] theorem setCable_inputs (c : Cable) (x : CableState) (s : State) : (setCable c x s).inputs = s.inputs := by cases c <;> rfl

@[simp] theorem setCable_table (c : Cable) (x : CableState) (s : State) : (setCable c x s).table = s.table := by cases c <;> rfl

@[simp] theorem setCable_timer (c : Cable) (x : CableState) (s : State) : (setCable c x s).timer = s.timer := by cases c <;> rfl

@[simp] theorem setCable_alloc (c : Cable) (x : CableState) (s : State) : (setCable c x s).alloc = s.alloc := by cases c <;> rfl

@[simp] theorem setCable_arb (c : Cable) (x : CableState) (s : State) : (setCable c x s).arb = s.arb := by cases c <;> rfl

@[simp] theorem setCable_pumps (c : Cable) (x : CableState) (s : State) : (setCable c x s).pumps = s.pumps := by cases c <;> rfl

@[simp] theorem setCable_players (c : Cable) (x : CableState) (s : State) : (setCable c x s).players = s.players := by cases c <;> rfl

@[simp] theorem setCable_profile (c : Cable) (x : CableState) (s : State) : (setCable c x s).profile = s.profile := by cases c <;> rfl

@[simp] theorem setCable_pointers (c : Cable) (x : CableState) (s : State) : (setCable c x s).pointers = s.pointers := by cases c <;> rfl

@[simp] theorem setCable_drives (c : Cable) (x : CableState) (s : State) : (setCable c x s).drives = s.drives := by cases c <;> rfl

@[simp] theorem setCable_gauge (c : Cable) (x : CableState) (s : State) : (setCable c x s).gauge = s.gauge := by cases c <;> rfl

@[simp] theorem setCable_port (c : Cable) (x : CableState) (s : State) : (setCable c x s).port = s.port := by cases c <;> rfl

@[simp] theorem setCable_free (c : Cable) (x : CableState) (s : State) : (setCable c x s).free = s.free := by cases c <;> rfl

@[simp] theorem setCable_pending (c : Cable) (x : CableState) (s : State) : (setCable c x s).pending = s.pending := by cases c <;> rfl

/-! `setGroup` writes `gauge` alone. -/

@[simp] theorem setGroup_cond (g : ProbeGroup) (r : GaugeGroup) (s : State) : (setGroup g r s).cond = s.cond := by cases g <;> rfl

@[simp] theorem setGroup_strapTime (g : ProbeGroup) (r : GaugeGroup) (s : State) : (setGroup g r s).strapTime = s.strapTime := by cases g <;> rfl

@[simp] theorem setGroup_straps (g : ProbeGroup) (r : GaugeGroup) (s : State) : (setGroup g r s).straps = s.straps := by cases g <;> rfl

@[simp] theorem setGroup_strapPins (g : ProbeGroup) (r : GaugeGroup) (s : State) : (setGroup g r s).strapPins = s.strapPins := by cases g <;> rfl

@[simp] theorem setGroup_inputs (g : ProbeGroup) (r : GaugeGroup) (s : State) : (setGroup g r s).inputs = s.inputs := by cases g <;> rfl

@[simp] theorem setGroup_table (g : ProbeGroup) (r : GaugeGroup) (s : State) : (setGroup g r s).table = s.table := by cases g <;> rfl

@[simp] theorem setGroup_timer (g : ProbeGroup) (r : GaugeGroup) (s : State) : (setGroup g r s).timer = s.timer := by cases g <;> rfl

@[simp] theorem setGroup_alloc (g : ProbeGroup) (r : GaugeGroup) (s : State) : (setGroup g r s).alloc = s.alloc := by cases g <;> rfl

@[simp] theorem setGroup_arb (g : ProbeGroup) (r : GaugeGroup) (s : State) : (setGroup g r s).arb = s.arb := by cases g <;> rfl

@[simp] theorem setGroup_pumps (g : ProbeGroup) (r : GaugeGroup) (s : State) : (setGroup g r s).pumps = s.pumps := by cases g <;> rfl

@[simp] theorem setGroup_players (g : ProbeGroup) (r : GaugeGroup) (s : State) : (setGroup g r s).players = s.players := by cases g <;> rfl

@[simp] theorem setGroup_profile (g : ProbeGroup) (r : GaugeGroup) (s : State) : (setGroup g r s).profile = s.profile := by cases g <;> rfl

@[simp] theorem setGroup_pointers (g : ProbeGroup) (r : GaugeGroup) (s : State) : (setGroup g r s).pointers = s.pointers := by cases g <;> rfl

@[simp] theorem setGroup_drives (g : ProbeGroup) (r : GaugeGroup) (s : State) : (setGroup g r s).drives = s.drives := by cases g <;> rfl

@[simp] theorem setGroup_line (g : ProbeGroup) (r : GaugeGroup) (s : State) : (setGroup g r s).line = s.line := by cases g <;> rfl

@[simp] theorem setGroup_port (g : ProbeGroup) (r : GaugeGroup) (s : State) : (setGroup g r s).port = s.port := by cases g <;> rfl

@[simp] theorem setGroup_free (g : ProbeGroup) (r : GaugeGroup) (s : State) : (setGroup g r s).free = s.free := by cases g <;> rfl

@[simp] theorem setGroup_pending (g : ProbeGroup) (r : GaugeGroup) (s : State) : (setGroup g r s).pending = s.pending := by cases g <;> rfl

/-! `setProbe` writes `gauge` alone. -/

@[simp] theorem setProbe_cond (p : Fin 6) (r : Probe) (s : State) : (setProbe p r s).cond = s.cond := rfl

@[simp] theorem setProbe_strapTime (p : Fin 6) (r : Probe) (s : State) : (setProbe p r s).strapTime = s.strapTime := rfl

@[simp] theorem setProbe_straps (p : Fin 6) (r : Probe) (s : State) : (setProbe p r s).straps = s.straps := rfl

@[simp] theorem setProbe_strapPins (p : Fin 6) (r : Probe) (s : State) : (setProbe p r s).strapPins = s.strapPins := rfl

@[simp] theorem setProbe_inputs (p : Fin 6) (r : Probe) (s : State) : (setProbe p r s).inputs = s.inputs := rfl

@[simp] theorem setProbe_table (p : Fin 6) (r : Probe) (s : State) : (setProbe p r s).table = s.table := rfl

@[simp] theorem setProbe_timer (p : Fin 6) (r : Probe) (s : State) : (setProbe p r s).timer = s.timer := rfl

@[simp] theorem setProbe_alloc (p : Fin 6) (r : Probe) (s : State) : (setProbe p r s).alloc = s.alloc := rfl

@[simp] theorem setProbe_arb (p : Fin 6) (r : Probe) (s : State) : (setProbe p r s).arb = s.arb := rfl

@[simp] theorem setProbe_pumps (p : Fin 6) (r : Probe) (s : State) : (setProbe p r s).pumps = s.pumps := rfl

@[simp] theorem setProbe_players (p : Fin 6) (r : Probe) (s : State) : (setProbe p r s).players = s.players := rfl

@[simp] theorem setProbe_profile (p : Fin 6) (r : Probe) (s : State) : (setProbe p r s).profile = s.profile := rfl

@[simp] theorem setProbe_pointers (p : Fin 6) (r : Probe) (s : State) : (setProbe p r s).pointers = s.pointers := rfl

@[simp] theorem setProbe_drives (p : Fin 6) (r : Probe) (s : State) : (setProbe p r s).drives = s.drives := rfl

@[simp] theorem setProbe_line (p : Fin 6) (r : Probe) (s : State) : (setProbe p r s).line = s.line := rfl

@[simp] theorem setProbe_port (p : Fin 6) (r : Probe) (s : State) : (setProbe p r s).port = s.port := rfl

@[simp] theorem setProbe_free (p : Fin 6) (r : Probe) (s : State) : (setProbe p r s).free = s.free := rfl

@[simp] theorem setProbe_pending (p : Fin 6) (r : Probe) (s : State) : (setProbe p r s).pending = s.pending := rfl

/-! `giveAnswer` writes `port` alone. -/

@[simp] theorem giveAnswer_cond (a : Answer) (s : State) : (giveAnswer a s).cond = s.cond := rfl

@[simp] theorem giveAnswer_strapTime (a : Answer) (s : State) : (giveAnswer a s).strapTime = s.strapTime := rfl

@[simp] theorem giveAnswer_straps (a : Answer) (s : State) : (giveAnswer a s).straps = s.straps := rfl

@[simp] theorem giveAnswer_strapPins (a : Answer) (s : State) : (giveAnswer a s).strapPins = s.strapPins := rfl

@[simp] theorem giveAnswer_inputs (a : Answer) (s : State) : (giveAnswer a s).inputs = s.inputs := rfl

@[simp] theorem giveAnswer_table (a : Answer) (s : State) : (giveAnswer a s).table = s.table := rfl

@[simp] theorem giveAnswer_timer (a : Answer) (s : State) : (giveAnswer a s).timer = s.timer := rfl

@[simp] theorem giveAnswer_alloc (a : Answer) (s : State) : (giveAnswer a s).alloc = s.alloc := rfl

@[simp] theorem giveAnswer_arb (a : Answer) (s : State) : (giveAnswer a s).arb = s.arb := rfl

@[simp] theorem giveAnswer_pumps (a : Answer) (s : State) : (giveAnswer a s).pumps = s.pumps := rfl

@[simp] theorem giveAnswer_players (a : Answer) (s : State) : (giveAnswer a s).players = s.players := rfl

@[simp] theorem giveAnswer_profile (a : Answer) (s : State) : (giveAnswer a s).profile = s.profile := rfl

@[simp] theorem giveAnswer_pointers (a : Answer) (s : State) : (giveAnswer a s).pointers = s.pointers := rfl

@[simp] theorem giveAnswer_drives (a : Answer) (s : State) : (giveAnswer a s).drives = s.drives := rfl

@[simp] theorem giveAnswer_gauge (a : Answer) (s : State) : (giveAnswer a s).gauge = s.gauge := rfl

@[simp] theorem giveAnswer_line (a : Answer) (s : State) : (giveAnswer a s).line = s.line := rfl

@[simp] theorem giveAnswer_free (a : Answer) (s : State) : (giveAnswer a s).free = s.free := rfl

@[simp] theorem giveAnswer_pending (a : Answer) (s : State) : (giveAnswer a s).pending = s.pending := rfl

/-! `withInputs` writes `inputs` alone. -/

@[simp] theorem withInputs_cond (inp : Inputs) (s : State) : (withInputs inp s).cond = s.cond := rfl

@[simp] theorem withInputs_strapTime (inp : Inputs) (s : State) : (withInputs inp s).strapTime = s.strapTime := rfl

@[simp] theorem withInputs_straps (inp : Inputs) (s : State) : (withInputs inp s).straps = s.straps := rfl

@[simp] theorem withInputs_strapPins (inp : Inputs) (s : State) : (withInputs inp s).strapPins = s.strapPins := rfl

@[simp] theorem withInputs_table (inp : Inputs) (s : State) : (withInputs inp s).table = s.table := rfl

@[simp] theorem withInputs_timer (inp : Inputs) (s : State) : (withInputs inp s).timer = s.timer := rfl

@[simp] theorem withInputs_alloc (inp : Inputs) (s : State) : (withInputs inp s).alloc = s.alloc := rfl

@[simp] theorem withInputs_arb (inp : Inputs) (s : State) : (withInputs inp s).arb = s.arb := rfl

@[simp] theorem withInputs_pumps (inp : Inputs) (s : State) : (withInputs inp s).pumps = s.pumps := rfl

@[simp] theorem withInputs_players (inp : Inputs) (s : State) : (withInputs inp s).players = s.players := rfl

@[simp] theorem withInputs_profile (inp : Inputs) (s : State) : (withInputs inp s).profile = s.profile := rfl

@[simp] theorem withInputs_pointers (inp : Inputs) (s : State) : (withInputs inp s).pointers = s.pointers := rfl

@[simp] theorem withInputs_drives (inp : Inputs) (s : State) : (withInputs inp s).drives = s.drives := rfl

@[simp] theorem withInputs_gauge (inp : Inputs) (s : State) : (withInputs inp s).gauge = s.gauge := rfl

@[simp] theorem withInputs_line (inp : Inputs) (s : State) : (withInputs inp s).line = s.line := rfl

@[simp] theorem withInputs_port (inp : Inputs) (s : State) : (withInputs inp s).port = s.port := rfl

@[simp] theorem withInputs_free (inp : Inputs) (s : State) : (withInputs inp s).free = s.free := rfl

@[simp] theorem withInputs_pending (inp : Inputs) (s : State) : (withInputs inp s).pending = s.pending := rfl

/-! `senseAsserted` writes `inputs` alone. -/

@[simp] theorem senseAsserted_cond (k : PumpIx) (s : State) : (senseAsserted k s).cond = s.cond := rfl

@[simp] theorem senseAsserted_strapTime (k : PumpIx) (s : State) : (senseAsserted k s).strapTime = s.strapTime := rfl

@[simp] theorem senseAsserted_straps (k : PumpIx) (s : State) : (senseAsserted k s).straps = s.straps := rfl

@[simp] theorem senseAsserted_strapPins (k : PumpIx) (s : State) : (senseAsserted k s).strapPins = s.strapPins := rfl

@[simp] theorem senseAsserted_table (k : PumpIx) (s : State) : (senseAsserted k s).table = s.table := rfl

@[simp] theorem senseAsserted_timer (k : PumpIx) (s : State) : (senseAsserted k s).timer = s.timer := rfl

@[simp] theorem senseAsserted_alloc (k : PumpIx) (s : State) : (senseAsserted k s).alloc = s.alloc := rfl

@[simp] theorem senseAsserted_arb (k : PumpIx) (s : State) : (senseAsserted k s).arb = s.arb := rfl

@[simp] theorem senseAsserted_pumps (k : PumpIx) (s : State) : (senseAsserted k s).pumps = s.pumps := rfl

@[simp] theorem senseAsserted_players (k : PumpIx) (s : State) : (senseAsserted k s).players = s.players := rfl

@[simp] theorem senseAsserted_profile (k : PumpIx) (s : State) : (senseAsserted k s).profile = s.profile := rfl

@[simp] theorem senseAsserted_pointers (k : PumpIx) (s : State) : (senseAsserted k s).pointers = s.pointers := rfl

@[simp] theorem senseAsserted_drives (k : PumpIx) (s : State) : (senseAsserted k s).drives = s.drives := rfl

@[simp] theorem senseAsserted_gauge (k : PumpIx) (s : State) : (senseAsserted k s).gauge = s.gauge := rfl

@[simp] theorem senseAsserted_line (k : PumpIx) (s : State) : (senseAsserted k s).line = s.line := rfl

@[simp] theorem senseAsserted_port (k : PumpIx) (s : State) : (senseAsserted k s).port = s.port := rfl

@[simp] theorem senseAsserted_free (k : PumpIx) (s : State) : (senseAsserted k s).free = s.free := rfl

@[simp] theorem senseAsserted_pending (k : PumpIx) (s : State) : (senseAsserted k s).pending = s.pending := rfl

/-! `withRunFb` writes `inputs` alone. -/

@[simp] theorem withRunFb_cond (k : PumpIx) (b : Bool) (s : State) : (withRunFb k b s).cond = s.cond := rfl

@[simp] theorem withRunFb_strapTime (k : PumpIx) (b : Bool) (s : State) : (withRunFb k b s).strapTime = s.strapTime := rfl

@[simp] theorem withRunFb_straps (k : PumpIx) (b : Bool) (s : State) : (withRunFb k b s).straps = s.straps := rfl

@[simp] theorem withRunFb_strapPins (k : PumpIx) (b : Bool) (s : State) : (withRunFb k b s).strapPins = s.strapPins := rfl

@[simp] theorem withRunFb_table (k : PumpIx) (b : Bool) (s : State) : (withRunFb k b s).table = s.table := rfl

@[simp] theorem withRunFb_timer (k : PumpIx) (b : Bool) (s : State) : (withRunFb k b s).timer = s.timer := rfl

@[simp] theorem withRunFb_alloc (k : PumpIx) (b : Bool) (s : State) : (withRunFb k b s).alloc = s.alloc := rfl

@[simp] theorem withRunFb_arb (k : PumpIx) (b : Bool) (s : State) : (withRunFb k b s).arb = s.arb := rfl

@[simp] theorem withRunFb_pumps (k : PumpIx) (b : Bool) (s : State) : (withRunFb k b s).pumps = s.pumps := rfl

@[simp] theorem withRunFb_players (k : PumpIx) (b : Bool) (s : State) : (withRunFb k b s).players = s.players := rfl

@[simp] theorem withRunFb_profile (k : PumpIx) (b : Bool) (s : State) : (withRunFb k b s).profile = s.profile := rfl

@[simp] theorem withRunFb_pointers (k : PumpIx) (b : Bool) (s : State) : (withRunFb k b s).pointers = s.pointers := rfl

@[simp] theorem withRunFb_drives (k : PumpIx) (b : Bool) (s : State) : (withRunFb k b s).drives = s.drives := rfl

@[simp] theorem withRunFb_gauge (k : PumpIx) (b : Bool) (s : State) : (withRunFb k b s).gauge = s.gauge := rfl

@[simp] theorem withRunFb_line (k : PumpIx) (b : Bool) (s : State) : (withRunFb k b s).line = s.line := rfl

@[simp] theorem withRunFb_port (k : PumpIx) (b : Bool) (s : State) : (withRunFb k b s).port = s.port := rfl

@[simp] theorem withRunFb_free (k : PumpIx) (b : Bool) (s : State) : (withRunFb k b s).free = s.free := rfl

@[simp] theorem withRunFb_pending (k : PumpIx) (b : Bool) (s : State) : (withRunFb k b s).pending = s.pending := rfl

/-! `holdDecoders` writes `line` alone. -/

@[simp] theorem holdDecoders_cond (s : State) : (holdDecoders s).cond = s.cond := rfl

@[simp] theorem holdDecoders_strapTime (s : State) : (holdDecoders s).strapTime = s.strapTime := rfl

@[simp] theorem holdDecoders_straps (s : State) : (holdDecoders s).straps = s.straps := rfl

@[simp] theorem holdDecoders_strapPins (s : State) : (holdDecoders s).strapPins = s.strapPins := rfl

@[simp] theorem holdDecoders_inputs (s : State) : (holdDecoders s).inputs = s.inputs := rfl

@[simp] theorem holdDecoders_table (s : State) : (holdDecoders s).table = s.table := rfl

@[simp] theorem holdDecoders_timer (s : State) : (holdDecoders s).timer = s.timer := rfl

@[simp] theorem holdDecoders_alloc (s : State) : (holdDecoders s).alloc = s.alloc := rfl

@[simp] theorem holdDecoders_arb (s : State) : (holdDecoders s).arb = s.arb := rfl

@[simp] theorem holdDecoders_pumps (s : State) : (holdDecoders s).pumps = s.pumps := rfl

@[simp] theorem holdDecoders_players (s : State) : (holdDecoders s).players = s.players := rfl

@[simp] theorem holdDecoders_profile (s : State) : (holdDecoders s).profile = s.profile := rfl

@[simp] theorem holdDecoders_pointers (s : State) : (holdDecoders s).pointers = s.pointers := rfl

@[simp] theorem holdDecoders_drives (s : State) : (holdDecoders s).drives = s.drives := rfl

@[simp] theorem holdDecoders_gauge (s : State) : (holdDecoders s).gauge = s.gauge := rfl

@[simp] theorem holdDecoders_port (s : State) : (holdDecoders s).port = s.port := rfl

@[simp] theorem holdDecoders_free (s : State) : (holdDecoders s).free = s.free := rfl

@[simp] theorem holdDecoders_pending (s : State) : (holdDecoders s).pending = s.pending := rfl

/-! `enterResting` writes `pumps, players, drives` alone. -/

@[simp] theorem enterResting_cond (k : PumpIx) (s : State) : (enterResting k s).cond = s.cond := rfl

@[simp] theorem enterResting_strapTime (k : PumpIx) (s : State) : (enterResting k s).strapTime = s.strapTime := rfl

@[simp] theorem enterResting_straps (k : PumpIx) (s : State) : (enterResting k s).straps = s.straps := rfl

@[simp] theorem enterResting_strapPins (k : PumpIx) (s : State) : (enterResting k s).strapPins = s.strapPins := rfl

@[simp] theorem enterResting_inputs (k : PumpIx) (s : State) : (enterResting k s).inputs = s.inputs := rfl

@[simp] theorem enterResting_table (k : PumpIx) (s : State) : (enterResting k s).table = s.table := rfl

@[simp] theorem enterResting_timer (k : PumpIx) (s : State) : (enterResting k s).timer = s.timer := rfl

@[simp] theorem enterResting_alloc (k : PumpIx) (s : State) : (enterResting k s).alloc = s.alloc := rfl

@[simp] theorem enterResting_arb (k : PumpIx) (s : State) : (enterResting k s).arb = s.arb := rfl

@[simp] theorem enterResting_profile (k : PumpIx) (s : State) : (enterResting k s).profile = s.profile := rfl

@[simp] theorem enterResting_pointers (k : PumpIx) (s : State) : (enterResting k s).pointers = s.pointers := rfl

@[simp] theorem enterResting_gauge (k : PumpIx) (s : State) : (enterResting k s).gauge = s.gauge := rfl

@[simp] theorem enterResting_line (k : PumpIx) (s : State) : (enterResting k s).line = s.line := rfl

@[simp] theorem enterResting_port (k : PumpIx) (s : State) : (enterResting k s).port = s.port := rfl

@[simp] theorem enterResting_free (k : PumpIx) (s : State) : (enterResting k s).free = s.free := rfl

@[simp] theorem enterResting_pending (k : PumpIx) (s : State) : (enterResting k s).pending = s.pending := rfl

/-! `enterRampDown` writes `pumps, players` alone. -/

@[simp] theorem enterRampDown_cond (k : PumpIx) (s : State) : (enterRampDown k s).cond = s.cond := rfl

@[simp] theorem enterRampDown_strapTime (k : PumpIx) (s : State) : (enterRampDown k s).strapTime = s.strapTime := rfl

@[simp] theorem enterRampDown_straps (k : PumpIx) (s : State) : (enterRampDown k s).straps = s.straps := rfl

@[simp] theorem enterRampDown_strapPins (k : PumpIx) (s : State) : (enterRampDown k s).strapPins = s.strapPins := rfl

@[simp] theorem enterRampDown_inputs (k : PumpIx) (s : State) : (enterRampDown k s).inputs = s.inputs := rfl

@[simp] theorem enterRampDown_table (k : PumpIx) (s : State) : (enterRampDown k s).table = s.table := rfl

@[simp] theorem enterRampDown_timer (k : PumpIx) (s : State) : (enterRampDown k s).timer = s.timer := rfl

@[simp] theorem enterRampDown_alloc (k : PumpIx) (s : State) : (enterRampDown k s).alloc = s.alloc := rfl

@[simp] theorem enterRampDown_arb (k : PumpIx) (s : State) : (enterRampDown k s).arb = s.arb := rfl

@[simp] theorem enterRampDown_profile (k : PumpIx) (s : State) : (enterRampDown k s).profile = s.profile := rfl

@[simp] theorem enterRampDown_pointers (k : PumpIx) (s : State) : (enterRampDown k s).pointers = s.pointers := rfl

@[simp] theorem enterRampDown_drives (k : PumpIx) (s : State) : (enterRampDown k s).drives = s.drives := rfl

@[simp] theorem enterRampDown_gauge (k : PumpIx) (s : State) : (enterRampDown k s).gauge = s.gauge := rfl

@[simp] theorem enterRampDown_line (k : PumpIx) (s : State) : (enterRampDown k s).line = s.line := rfl

@[simp] theorem enterRampDown_port (k : PumpIx) (s : State) : (enterRampDown k s).port = s.port := rfl

@[simp] theorem enterRampDown_free (k : PumpIx) (s : State) : (enterRampDown k s).free = s.free := rfl

@[simp] theorem enterRampDown_pending (k : PumpIx) (s : State) : (enterRampDown k s).pending = s.pending := rfl

/-! `enterRampUp` writes `pumps, players` alone. -/

@[simp] theorem enterRampUp_cond (k : PumpIx) (s : State) : (enterRampUp k s).cond = s.cond := rfl

@[simp] theorem enterRampUp_strapTime (k : PumpIx) (s : State) : (enterRampUp k s).strapTime = s.strapTime := rfl

@[simp] theorem enterRampUp_straps (k : PumpIx) (s : State) : (enterRampUp k s).straps = s.straps := rfl

@[simp] theorem enterRampUp_strapPins (k : PumpIx) (s : State) : (enterRampUp k s).strapPins = s.strapPins := rfl

@[simp] theorem enterRampUp_inputs (k : PumpIx) (s : State) : (enterRampUp k s).inputs = s.inputs := rfl

@[simp] theorem enterRampUp_table (k : PumpIx) (s : State) : (enterRampUp k s).table = s.table := rfl

@[simp] theorem enterRampUp_timer (k : PumpIx) (s : State) : (enterRampUp k s).timer = s.timer := rfl

@[simp] theorem enterRampUp_alloc (k : PumpIx) (s : State) : (enterRampUp k s).alloc = s.alloc := rfl

@[simp] theorem enterRampUp_arb (k : PumpIx) (s : State) : (enterRampUp k s).arb = s.arb := rfl

@[simp] theorem enterRampUp_profile (k : PumpIx) (s : State) : (enterRampUp k s).profile = s.profile := rfl

@[simp] theorem enterRampUp_pointers (k : PumpIx) (s : State) : (enterRampUp k s).pointers = s.pointers := rfl

@[simp] theorem enterRampUp_drives (k : PumpIx) (s : State) : (enterRampUp k s).drives = s.drives := rfl

@[simp] theorem enterRampUp_gauge (k : PumpIx) (s : State) : (enterRampUp k s).gauge = s.gauge := rfl

@[simp] theorem enterRampUp_line (k : PumpIx) (s : State) : (enterRampUp k s).line = s.line := rfl

@[simp] theorem enterRampUp_port (k : PumpIx) (s : State) : (enterRampUp k s).port = s.port := rfl

@[simp] theorem enterRampUp_free (k : PumpIx) (s : State) : (enterRampUp k s).free = s.free := rfl

@[simp] theorem enterRampUp_pending (k : PumpIx) (s : State) : (enterRampUp k s).pending = s.pending := rfl

/-! `faultPump` writes `pumps, players, drives, port` alone. -/

@[simp] theorem faultPump_cond (k : PumpIx) (c : FaultCause) (s : State) : (faultPump k c s).cond = s.cond := rfl

@[simp] theorem faultPump_strapTime (k : PumpIx) (c : FaultCause) (s : State) : (faultPump k c s).strapTime = s.strapTime := rfl

@[simp] theorem faultPump_straps (k : PumpIx) (c : FaultCause) (s : State) : (faultPump k c s).straps = s.straps := rfl

@[simp] theorem faultPump_strapPins (k : PumpIx) (c : FaultCause) (s : State) : (faultPump k c s).strapPins = s.strapPins := rfl

@[simp] theorem faultPump_inputs (k : PumpIx) (c : FaultCause) (s : State) : (faultPump k c s).inputs = s.inputs := rfl

@[simp] theorem faultPump_table (k : PumpIx) (c : FaultCause) (s : State) : (faultPump k c s).table = s.table := rfl

@[simp] theorem faultPump_timer (k : PumpIx) (c : FaultCause) (s : State) : (faultPump k c s).timer = s.timer := rfl

@[simp] theorem faultPump_alloc (k : PumpIx) (c : FaultCause) (s : State) : (faultPump k c s).alloc = s.alloc := rfl

@[simp] theorem faultPump_arb (k : PumpIx) (c : FaultCause) (s : State) : (faultPump k c s).arb = s.arb := rfl

@[simp] theorem faultPump_profile (k : PumpIx) (c : FaultCause) (s : State) : (faultPump k c s).profile = s.profile := rfl

@[simp] theorem faultPump_pointers (k : PumpIx) (c : FaultCause) (s : State) : (faultPump k c s).pointers = s.pointers := rfl

@[simp] theorem faultPump_gauge (k : PumpIx) (c : FaultCause) (s : State) : (faultPump k c s).gauge = s.gauge := rfl

@[simp] theorem faultPump_line (k : PumpIx) (c : FaultCause) (s : State) : (faultPump k c s).line = s.line := rfl

@[simp] theorem faultPump_free (k : PumpIx) (c : FaultCause) (s : State) : (faultPump k c s).free = s.free := rfl

@[simp] theorem faultPump_pending (k : PumpIx) (c : FaultCause) (s : State) : (faultPump k c s).pending = s.pending := rfl

/-! What the updates write. -/

@[simp] theorem State.pump_setPump_self (k : PumpIx) (p : Pump) (s : State) : (s.setPump k p).pump k = p := by
  simp [State.pump, State.setPump]

@[simp] theorem State.pump_setPump_of_ne {j k : PumpIx} (h : k ≠ j) (p : Pump) (s : State) :
    (s.setPump k p).pump j = s.pump j := by
  have : k.val ≠ j.val := fun e => h (Fin.ext e)
  simp [State.pump, State.setPump, this]

@[simp] theorem State.player_setPlayer_self (k : PumpIx) (p : Player) (s : State) : (s.setPlayer k p).player k = p := by
  simp [State.player, State.setPlayer]

@[simp] theorem State.player_setPlayer_of_ne {j k : PumpIx} (h : k ≠ j) (p : Player) (s : State) :
    (s.setPlayer k p).player j = s.player j := by
  have : k.val ≠ j.val := fun e => h (Fin.ext e)
  simp [State.player, State.setPlayer, this]

@[simp] theorem State.player_setPump (j k : PumpIx) (p : Pump) (s : State) : (s.setPump k p).player j = s.player j := rfl

@[simp] theorem State.pump_setPlayer (j k : PumpIx) (p : Player) (s : State) : (s.setPlayer k p).pump j = s.pump j := rfl

@[simp] theorem State.entries_setEntry (k : Station) (e : Entry) (s : State) :
    (s.setEntry k e).table.entries = s.table.entries.set k e := rfl

@[simp] theorem State.flags_raise (f : Attention) (s : State) : (s.raise f).port.flags = s.port.flags ||| f.bit := rfl

@[simp] theorem State.mask_raise (f : Attention) (s : State) : (s.raise f).port.mask = s.port.mask := rfl

@[simp] theorem answer_giveAnswer (a : Answer) (s : State) : (giveAnswer a s).port.answer = some a.chars := rfl

@[simp] theorem flags_giveAnswer (a : Answer) (s : State) : (giveAnswer a s).port.flags = s.port.flags := rfl

@[simp] theorem cable_setCable_self (c : Cable) (x : CableState) (s : State) : (setCable c x s).line.cable c = x := by
  cases c <;> rfl

@[simp] theorem cable_setCable_other (c : Cable) (x : CableState) (s : State) :
    (setCable c x s).line.cable (otherCable c) = s.line.cable (otherCable c) := by
  cases c <;> rfl

@[simp] theorem group_setGroup_self (g : ProbeGroup) (r : GaugeGroup) (s : State) : (setGroup g r s).gauge.group g = r := by
  cases g <;> rfl

/-! Reads of the state that an update of another field leaves alone. -/

@[simp] theorem State.own_setPump (k : PumpIx) (p : Pump) (s : State) : (s.setPump k p).own = s.own := rfl

@[simp] theorem State.isRunning_setPump (k : PumpIx) (p : Pump) (s : State) : (s.setPump k p).isRunning = s.isRunning := rfl

@[simp] theorem State.sumpLow_setPump (j k : PumpIx) (p : Pump) (s : State) : (s.setPump k p).sumpLow j = s.sumpLow j := rfl

@[simp] theorem State.isRunning_withInputs (inp : Inputs) (s : State) : (withInputs inp s).isRunning = s.isRunning := rfl

@[simp] theorem State.isRunning_of_running {s : State} (h : s.cond = .running) : s.isRunning = true := by
  simp [State.isRunning, h]

end Sys2Proof.Machine
end

