-- ==== Sys2Proof/Laws/Ops.lean ====
section
/-! SUPPORT. What each shared operation can do, said once. A lemma `f_changes` says which fields of the state `f` can change: it
gives the new values of those fields and says that every other field stands. The other lemmas say what an operation writes
where it acts. -/

namespace Sys2Proof.Machine

open Sys2Proof

/-! ### What an operation can change -/

theorem beginScans_changes (s : State) :
    ∃ g', beginScans s = { s with gauge := g' } := ⟨_, rfl⟩

theorem syncSampling_changes (s : State) :
    ∃ g', syncSampling s = { s with gauge := g' } := by
  simp only [syncSampling]
  repeat' split
  all_goals exact ⟨_, rfl⟩

theorem watchStart_changes (s : State) :
    ∃ a', watchStart s = { s with arb := a' } := by
  simp only [watchStart]
  repeat' split
  all_goals exact ⟨_, rfl⟩

theorem follow_changes (s : State) :
    ∃ a' g', follow s = { s with arb := a', gauge := g' } := by
  obtain ⟨g, h⟩ := syncSampling_changes s
  obtain ⟨a, h'⟩ := watchStart_changes { s with gauge := g }
  exact ⟨a, g, by rw [follow, h, h']⟩

/-- What follows an event changes the arbiter and the gauge unit alone. -/
theorem follow_frame (s : State) : follow s = { s with arb := (follow s).arb, gauge := (follow s).gauge } := by
  obtain ⟨a, g, h⟩ := follow_changes s
  rw [h]

theorem enterRunning_changes (k : PumpIx) (s : State) :
    ∃ p' q', enterRunning k s = { s with pumps := p', players := q' } := by
  simp only [enterRunning]
  repeat' split
  all_goals exact ⟨_, _, rfl⟩

theorem startPump_changes (k : PumpIx) (s : State) :
    ∃ p' q', startPump k s = { s with pumps := p', players := q' } := by
  simp only [startPump]
  repeat' split
  all_goals exact ⟨_, _, rfl⟩

theorem urgentStop_changes (k : PumpIx) (s : State) :
    ∃ p' q' d', urgentStop k s = { s with pumps := p', players := q', drives := d' } := by
  simp only [urgentStop]
  repeat' split
  all_goals exact ⟨_, _, _, rfl⟩

theorem shedStop_changes (k : PumpIx) (s : State) :
    ∃ p' q' d', shedStop k s = { s with pumps := p', players := q', drives := d' } := by
  simp only [shedStop]
  repeat' split
  all_goals exact ⟨_, _, _, rfl⟩

theorem markFinishing_changes (k : PumpIx) (s : State) :
    ∃ p' q', markFinishing k s = { s with pumps := p', players := q' } := by
  simp only [markFinishing]
  repeat' split
  all_goals exact ⟨_, _, rfl⟩

theorem demandStop_changes (d : Bool) (k : PumpIx) (s : State) :
    ∃ p' q' d', demandStop d k s = { s with pumps := p', players := q', drives := d' } := by
  obtain ⟨_, _, h⟩ := markFinishing_changes k s
  simp only [demandStop, h]
  repeat' split
  all_goals exact ⟨_, _, _, rfl⟩

theorem superviseFeedback_changes (k : PumpIx) (s : State) :
    ∃ p' q' d' r', superviseFeedback k s = { s with pumps := p', players := q', drives := d', port := r' } := by
  simp only [superviseFeedback]
  repeat' split
  all_goals exact ⟨_, _, _, _, rfl⟩

theorem pumpRoundEnd_changes (b : Bool) (k : PumpIx) (s : State) :
    ∃ p' q' d' r', pumpRoundEnd b k s = { s with pumps := p', players := q', drives := d', port := r' } := by
  obtain ⟨_, _, _, _, h⟩ := superviseFeedback_changes k s
  obtain ⟨_, _, _, h'⟩ := urgentStop_changes k s
  simp only [pumpRoundEnd, h, h']
  repeat' split
  all_goals exact ⟨_, _, _, _, rfl⟩

theorem pumpsRoundEnd_changes (b : Bool) (s : State) :
    ∃ p' q' d' r', pumpsRoundEnd b s = { s with pumps := p', players := q', drives := d', port := r' } := by
  obtain ⟨_, _, _, _, h₀⟩ := pumpRoundEnd_changes b 0 s
  obtain ⟨_, _, _, _, h₁⟩ := pumpRoundEnd_changes b 1 (pumpRoundEnd b 0 s)
  obtain ⟨_, _, _, _, h₂⟩ := pumpRoundEnd_changes b 2 (pumpRoundEnd b 1 (pumpRoundEnd b 0 s))
  obtain ⟨_, _, _, _, h₃⟩ := pumpRoundEnd_changes b 3 (pumpRoundEnd b 2 (pumpRoundEnd b 1 (pumpRoundEnd b 0 s)))
  simp only [pumpsRoundEnd, pumpList, List.foldl]
  rw [h₃, h₂, h₁, h₀]
  exact ⟨_, _, _, _, rfl⟩

theorem takeStart_changes (s : State) :
    ∃ p' q' g', takeStart s = { s with pumps := p', players := q', gauge := g' } := by
  simp only [takeStart]
  split
  · rename_i k _
    split
    · obtain ⟨_, _, h⟩ := startPump_changes k s
      obtain ⟨_, h'⟩ := syncSampling_changes (startPump k s)
      rw [h', h]
      exact ⟨_, _, _, rfl⟩
    · exact ⟨_, _, _, rfl⟩
  · exact ⟨_, _, _, rfl⟩

theorem chooseReference_changes (s : State) :
    ∃ m', chooseReference s = { s with timer := m' } := ⟨_, rfl⟩

theorem setMode_changes (m : Mode) (s : State) :
    ∃ m' r', setMode m s = { s with timer := m', port := r' } := by
  simp only [setMode]
  repeat' split
  all_goals exact ⟨_, _, rfl⟩

theorem goSilent_changes (s : State) :
    ∃ m' a' l' r', goSilent s = { s with timer := m', arb := a', line := l', port := r' } := by
  simp only [goSilent]
  split
  · exact ⟨_, _, _, _, rfl⟩
  · obtain ⟨_, _, h⟩ := setMode_changes .silent
      (if s.arb.part = .won then { s with line := { s.line with handed := none, tx := none }
                                          arb := { s.arb with pendingStart := none } }
       else { s with line := { s.line with handed := none, tx := none } })
    rw [h]
    split
    all_goals exact ⟨_, _, _, _, rfl⟩

theorem countReadBackFailure_changes (s : State) :
    ∃ m' a' l' r', countReadBackFailure s = { s with timer := m', arb := a', line := l', port := r' } := by
  simp only [countReadBackFailure]
  repeat' split
  · exact ⟨_, _, _, _, rfl⟩
  · obtain ⟨_, _, _, _, h⟩ := goSilent_changes
      { s with timer := { s.timer with failedInRound := true, readBackCount := s.timer.readBackCount + 1 } }
    rw [h]
    exact ⟨_, _, _, _, rfl⟩
  · exact ⟨_, _, _, _, rfl⟩

theorem tableRoundEnd_changes (s : State) :
    ∃ t' r', tableRoundEnd s = { s with table := t', port := r' } := by
  simp only [tableRoundEnd]
  repeat' split
  all_goals exact ⟨_, _, rfl⟩

theorem gaugeRoundEnd_changes (s : State) :
    ∃ g', gaugeRoundEnd s = { s with gauge := g' } := by
  have one : ∀ x : State, (∃ g', x = { s with gauge := g' }) → ∃ g', syncSampling x = { s with gauge := g' } := by
    rintro x ⟨_, rfl⟩
    obtain ⟨_, h⟩ := syncSampling_changes { s with gauge := _ }
    rw [h]
    exact ⟨_, rfl⟩
  have here := one s ⟨_, rfl⟩
  simp only [gaugeRoundEnd]
  split
  · exact one _ (by split <;> exact ⟨_, rfl⟩)
  · split
    · exact here
    · obtain ⟨_, h⟩ := here
      rw [h]
      exact ⟨_, rfl⟩

theorem countsRoundEnd_changes (s : State) :
    ∃ m' r', countsRoundEnd s = { s with timer := m', port := r' } := by
  have one : ∀ (m : Mode) (x : State), (∃ m' r', x = { s with timer := m', port := r' }) →
      ∃ m' r', setMode m x = { s with timer := m', port := r' } := by
    rintro m x ⟨_, _, rfl⟩
    obtain ⟨_, _, h⟩ := setMode_changes m { s with timer := _, port := _ }
    rw [h]
    exact ⟨_, _, rfl⟩
  simp only [countsRoundEnd]
  repeat' split
  all_goals first
    | exact ⟨_, _, rfl⟩
    | exact one _ _ ⟨_, _, rfl⟩

theorem timerRoundEnd_changes (s : State) :
    ∃ m' r', timerRoundEnd s = { s with timer := m', port := r' } := by
  obtain ⟨_, _, h⟩ := countsRoundEnd_changes s
  simp only [timerRoundEnd, h]
  exact ⟨_, _, rfl⟩

theorem endCheck_changes (r : CheckResult) (s : State) :
    ∃ l' r', endCheck r s = { s with line := l', port := r' } := ⟨_, _, rfl⟩

theorem abortCheck_changes (s : State) :
    ∃ l' r', abortCheck s = { s with line := l', port := r' } := by
  simp only [abortCheck]
  repeat' split
  all_goals exact ⟨_, _, rfl⟩

theorem setActive_changes (c : Cable) (s : State) :
    ∃ l' r', setActive c s = { s with line := l', port := r' } := by
  obtain ⟨_, _, h⟩ := abortCheck_changes { s with line := { s.line with active := c } }
  rw [setActive, h]
  exact ⟨_, _, rfl⟩

theorem checkRoundEnd_changes (s : State) :
    ∃ l' r', checkRoundEnd s = { s with line := l', port := r' } := by
  simp only [checkRoundEnd]
  repeat' split
  all_goals exact ⟨_, _, rfl⟩

theorem switchTest_changes (s : State) :
    ∃ l' r', switchTest s = { s with line := l', port := r' } := by
  obtain ⟨_, _, h⟩ := setActive_changes (otherCable s.line.active) s
  simp only [switchTest, h]
  split
  all_goals exact ⟨_, _, rfl⟩

theorem lineRoundEnd_changes (s : State) :
    ∃ l' r', lineRoundEnd s = { s with line := l', port := r' } := by
  obtain ⟨l, r, h⟩ := checkRoundEnd_changes s
  simp only [lineRoundEnd, h]
  obtain ⟨_, _, h⟩ := switchTest_changes { s with line := { l with a := l.a.roundEnd, b := l.b.roundEnd }, port := r }
  exact ⟨_, _, h⟩

theorem roundEndWork_changes (s : State) :
    ∃ t' m' p' q' d' g' l' r' n', roundEndWork s =
      { s with table := t', timer := m', pumps := p', players := q', drives := d', gauge := g', line := l', port := r', free := n' } := by
  simp only [roundEndWork]
  obtain ⟨l, r, h⟩ := lineRoundEnd_changes s
  generalize lineRoundEnd s = x₁ at h ⊢
  obtain ⟨t, r₂, h₂⟩ := tableRoundEnd_changes x₁
  generalize tableRoundEnd x₁ = x₂ at h₂ ⊢
  generalize stopEnters x₁ x₂ = b
  obtain ⟨p, q, d, r₃, h₃⟩ := pumpsRoundEnd_changes b x₂
  generalize pumpsRoundEnd b x₂ = x₃ at h₃ ⊢
  obtain ⟨g, h₄⟩ := gaugeRoundEnd_changes x₃
  generalize gaugeRoundEnd x₃ = x₄ at h₄ ⊢
  obtain ⟨m, r₅, h₅⟩ := timerRoundEnd_changes x₄
  rw [h₅]
  subst h₄ h₃ h₂ h
  exact ⟨_, _, _, _, _, _, _, _, _, rfl⟩

theorem skipInstants_changes (lo hi : Nat) (s : State) :
    ∃ m' l', skipInstants lo hi s = { s with timer := m', line := l' } := by
  simp only [skipInstants]
  repeat' split
  all_goals exact ⟨_, _, rfl⟩

theorem realign_changes (k : Station) (c : Word16) (age : Nat) (s : State) :
    ∃ t' m' p' q' d' g' l' r' n', realign k c age s =
      { s with table := t', timer := m', pumps := p', players := q', drives := d', gauge := g', line := l', port := r', free := n' } := by
  have skip : ∀ (lo hi : Nat) (x : State),
      (∃ t' m' p' q' d' g' l' r' n', x =
        { s with table := t', timer := m', pumps := p', players := q', drives := d', gauge := g', line := l', port := r', free := n' }) →
      ∃ t' m' p' q' d' g' l' r' n', skipInstants lo hi x =
        { s with table := t', timer := m', pumps := p', players := q', drives := d', gauge := g', line := l', port := r', free := n' } := by
    intro lo hi x hx
    obtain ⟨_, _, h⟩ := skipInstants_changes lo hi x
    obtain ⟨_, _, _, _, _, _, _, _, _, hx⟩ := hx
    rw [h, hx]
    exact ⟨_, _, _, _, _, _, _, _, _, rfl⟩
  obtain ⟨_, _, _, _, _, _, _, _, _, h⟩ := roundEndWork_changes (skipInstants s.timer.phase 500000 s)
  obtain ⟨_, _, h'⟩ := skipInstants_changes s.timer.phase 500000 s
  simp only [realign]
  split
  · split
    · obtain ⟨_, _, _, _, _, _, _, _, _, e⟩ := skip 0 (alignedPhase k age) (roundEndWork (skipInstants s.timer.phase 500000 s))
        (by rw [h, h']; exact ⟨_, _, _, _, _, _, _, _, _, rfl⟩)
      rw [e]
      exact ⟨_, _, _, _, _, _, _, _, _, rfl⟩
    · obtain ⟨_, _, _, _, _, _, _, _, _, e⟩ := skip s.timer.phase (alignedPhase k age) s ⟨_, _, _, _, _, _, _, _, _, rfl⟩
      rw [e]
      exact ⟨_, _, _, _, _, _, _, _, _, rfl⟩
  · exact ⟨_, _, _, _, _, _, _, _, _, rfl⟩

theorem realignOrHold_changes (k : Station) (c : Word16) (age : Nat) (s : State) :
    ∃ t' m' p' q' d' g' l' r' n', realignOrHold k c age s =
      { s with table := t', timer := m', pumps := p', players := q', drives := d', gauge := g', line := l', port := r', free := n' } := by
  have h := realign_changes k c age s
  simp only [realignOrHold]
  repeat' split
  · exact ⟨_, _, _, _, _, _, _, _, _, rfl⟩
  · exact h
  · exact h

theorem releaseRealignment_changes (s : State) :
    ∃ t' m' p' q' d' g' l' r' n' a', releaseRealignment s =
      { s with table := t', timer := m', pumps := p', players := q', drives := d', gauge := g', line := l', port := r', free := n', arb := a' } := by
  simp only [releaseRealignment]
  split
  · rename_i h _
    obtain ⟨_, _, _, _, _, _, _, _, _, e⟩ := realign_changes h.sender h.frameCount h.edgeAge
      { s with arb := { s.arb with window := s.arb.window.map (fun w => ({ w with holding := false } : Window)) }
               timer := { s.timer with held := none } }
    rw [e]
    exact ⟨_, _, _, _, _, _, _, _, _, _, rfl⟩
  · exact ⟨_, _, _, _, _, _, _, _, _, _, rfl⟩

theorem checkActiveFrame_changes (cs : List Byte) (s : State) :
    ∃ l', checkActiveFrame cs s = { s with line := l' } := by
  simp only [checkActiveFrame]
  repeat' split
  all_goals exact ⟨_, rfl⟩

theorem checkStandbyFrame_changes (f : Option (List Byte)) (s : State) :
    ∃ l', checkStandbyFrame f s = { s with line := l' } := by
  simp only [checkStandbyFrame]
  repeat' split
  all_goals exact ⟨_, rfl⟩

theorem checkOwnFrame_changes (t : Transmission) (s : State) :
    ∃ l', checkOwnFrame t s = { s with line := l' } := by
  obtain ⟨_, h⟩ := checkActiveFrame_changes t.chars s
  simp only [checkOwnFrame]
  split
  · rename_i f _
    obtain ⟨_, h'⟩ := checkStandbyFrame_changes f (checkActiveFrame t.chars s)
    rw [h', h]
    exact ⟨_, rfl⟩
  · exact ⟨_, h⟩

theorem finishTransmission_changes (t : Transmission) (s : State) :
    ∃ a' l', finishTransmission t s = { s with arb := a', line := l' } := by
  obtain ⟨_, h⟩ := checkOwnFrame_changes t { s with line := { s.line with tx := none } }
  simp only [finishTransmission, h]
  split
  all_goals exact ⟨_, _, rfl⟩

theorem failReadBack_changes (t : Transmission) (s : State) :
    ∃ t' m' p' q' d' g' l' r' n' a', failReadBack t s =
      { s with table := t', timer := m', pumps := p', players := q', drives := d', gauge := g', line := l', port := r', free := n', arb := a' } := by
  obtain ⟨_, _, _, _, h⟩ := countReadBackFailure_changes { s with line := { s.line with tx := none } }
  simp only [failReadBack]
  split
  · rw [h]
    exact ⟨_, _, _, _, _, _, _, _, _, _, rfl⟩
  · obtain ⟨_, _, _, _, _, _, _, _, _, _, h'⟩ :=
      releaseRealignment_changes (dropStart (countReadBackFailure { s with line := { s.line with tx := none } }))
    rw [h', dropStart, h]
    exact ⟨_, _, _, _, _, _, _, _, _, _, rfl⟩

theorem applyAnnouncement_changes (a : Announcement) (s : State) :
    ∃ t', applyAnnouncement a s = { s with table := t' } := ⟨_, rfl⟩

theorem applyConfirmation_changes (c : Confirmation) (s : State) :
    ∃ t', applyConfirmation c s = { s with table := t' } := by
  simp only [applyConfirmation]
  repeat' split
  all_goals exact ⟨_, rfl⟩

theorem rejoin_changes (s : State) :
    ∃ m' r', rejoin s = { s with timer := m', port := r' } := by
  obtain ⟨_, _, h⟩ := setMode_changes .joining { s with timer := { s.timer with aligned := true, joiningCount := 0 } }
  rw [rejoin, h]
  exact ⟨_, _, rfl⟩

theorem alignMode_changes (b : Bool) (s : State) :
    ∃ m' r', alignMode b s = { s with timer := m', port := r' } := by
  have h := rejoin_changes s
  simp only [alignMode]
  repeat' split
  · exact h
  · exact ⟨_, _, rfl⟩
  · exact ⟨_, _, rfl⟩

theorem acceptAnnouncement_changes (a : Announcement) (age : Nat) (s : State) :
    ∃ t' m' p' q' d' g' l' r' n', acceptAnnouncement a age s =
      { s with table := t', timer := m', pumps := p', players := q', drives := d', gauge := g', line := l', port := r', free := n' } := by
  simp only [acceptAnnouncement]
  obtain ⟨_, _, h⟩ := alignMode_changes s.awaitsFirstFrame
    (if (s.awaitsFirstFrame || decide ((chooseReference (applyAnnouncement a s)).timer.reference = some a.station)) = true then
      realignOrHold a.station a.count age (chooseReference (applyAnnouncement a s))
     else chooseReference (applyAnnouncement a s))
  rw [h]
  split
  · obtain ⟨_, _, _, _, _, _, _, _, _, h⟩ := realignOrHold_changes a.station a.count age (chooseReference (applyAnnouncement a s))
    rw [h]
    exact ⟨_, _, _, _, _, _, _, _, _, rfl⟩
  · exact ⟨_, _, _, _, _, _, _, _, _, rfl⟩

theorem duplicateHeard_changes (s : State) :
    ∃ m' a' l' r', duplicateHeard s = { s with timer := m', arb := a', line := l', port := r' } := by
  have h := goSilent_changes s
  simp only [duplicateHeard]
  split
  · exact h
  · exact ⟨_, _, _, _, rfl⟩

theorem offerAnnouncement_changes (x : Assembly) (s : State) :
    ∃ t' m' p' q' d' g' l' r' n' a', offerAnnouncement x s =
      { s with table := t', timer := m', pumps := p', players := q', drives := d', gauge := g', line := l', port := r', free := n', arb := a' } := by
  obtain ⟨_, _, _, _, h⟩ := duplicateHeard_changes s
  obtain ⟨_, _, _, _, _, _, _, _, _, h'⟩ := acceptAnnouncement_changes (parseAnnouncement x.chars) x.edgeAge s
  simp only [offerAnnouncement]
  repeat' split
  · exact ⟨_, _, _, _, _, _, _, _, _, _, h⟩
  · exact ⟨_, _, _, _, _, _, _, _, _, _, rfl⟩
  · exact ⟨_, _, _, _, _, _, _, _, _, _, rfl⟩
  · exact ⟨_, _, _, _, _, _, _, _, _, _, h'⟩

theorem offerConfirmation_changes (x : Assembly) (s : State) :
    ∃ t' m' a' l' r', offerConfirmation x s = { s with table := t', timer := m', arb := a', line := l', port := r' } := by
  obtain ⟨_, h⟩ := applyConfirmation_changes (parseConfirmation x.chars) s
  simp only [offerConfirmation, h]
  split
  · obtain ⟨_, _, _, _, h'⟩ := duplicateHeard_changes
      { s with table := _
               arb := { s.arb with
                 record := some (⟨(parseConfirmation x.chars).station, (parseConfirmation x.chars).pump,
                   (parseConfirmation x.chars).rating, s.timer.count⟩ : WindowRecord)
                 window := s.arb.window.map (fun w => ({ w with notFree := true } : Window)) } }
    exact ⟨_, _, _, _, _, h'⟩
  · exact ⟨_, _, _, _, _, rfl⟩

theorem offerFrame_changes (x : Assembly) (s : State) :
    ∃ t' m' p' q' d' g' l' r' n' a', offerFrame x s =
      { s with table := t', timer := m', pumps := p', players := q', drives := d', gauge := g', line := l', port := r', free := n', arb := a' } := by
  have h := offerAnnouncement_changes x s
  obtain ⟨_, _, _, _, _, h'⟩ := offerConfirmation_changes x s
  simp only [offerFrame]
  split
  · exact h
  · exact ⟨_, _, _, _, _, _, _, _, _, _, h'⟩

theorem shedUntil_changes (l n : Nat) (s : State) :
    ∃ p' q' d', shedUntil l n s = { s with pumps := p', players := q', drives := d' } := by
  induction n generalizing s with
  | zero => exact ⟨_, _, _, rfl⟩
  | succ n ih =>
    simp only [shedUntil]
    repeat' split
    · rename_i k _
      obtain ⟨_, _, _, h⟩ := ih (shedStop k s)
      obtain ⟨_, _, _, h'⟩ := shedStop_changes k s
      rw [h, h']
      exact ⟨_, _, _, rfl⟩
    · exact ⟨_, _, _, rfl⟩
    · exact ⟨_, _, _, rfl⟩

theorem settleWork_changes (s : State) :
    ∃ c' p' q' d', settleWork s = { s with alloc := c', pumps := p', players := q', drives := d' } := by
  simp only [settleWork]
  split
  · obtain ⟨_, _, _, h⟩ := shedUntil_changes (settleFigures s).entitlement 4 { s with alloc := settleFigures s }
    rw [h]
    exact ⟨_, _, _, _, rfl⟩
  · split
    · rename_i k _
      obtain ⟨_, _, _, h⟩ := demandStop_changes false k { s with alloc := settleFigures s }
      rw [h]
      exact ⟨_, _, _, _, rfl⟩
    · exact ⟨_, _, _, _, rfl⟩

theorem stopLowPumps_changes (b : State) (s : State) :
    ∃ p' q' d', stopLowPumps b s = { s with pumps := p', players := q', drives := d' } := by
  have one : ∀ (c : Bool) (k : PumpIx) (s : State), ∃ p q r,
      (if c then urgentStop k s else s) = { s with pumps := p, players := q, drives := r } := by
    intro c k s
    cases c
    · exact ⟨_, _, _, rfl⟩
    · exact urgentStop_changes k s
  have all : ∀ (l : List PumpIx) (s : State), ∃ p q r,
      l.foldl (fun s k => if s.sumpLow k && !b.sumpLow k then urgentStop k s else s) s =
        { s with pumps := p, players := q, drives := r } := by
    intro l
    induction l with
    | nil => exact fun s => ⟨_, _, _, rfl⟩
    | cons k l ih =>
      intro s
      obtain ⟨_, _, _, h⟩ := one (s.sumpLow k && !b.sumpLow k) k s
      obtain ⟨_, _, _, h'⟩ := ih (if s.sumpLow k && !b.sumpLow k then urgentStop k s else s)
      rw [List.foldl_cons, h', h]
      exact ⟨_, _, _, rfl⟩
  exact all pumpList s

/-! ### The fields that `follow` leaves alone -/

@[simp] theorem follow_cond (s : State) : (follow s).cond = s.cond := by
  obtain ⟨_, _, h⟩ := follow_changes s
  rw [h]

@[simp] theorem follow_strapTime (s : State) : (follow s).strapTime = s.strapTime := by
  obtain ⟨_, _, h⟩ := follow_changes s
  rw [h]

@[simp] theorem follow_straps (s : State) : (follow s).straps = s.straps := by
  obtain ⟨_, _, h⟩ := follow_changes s
  rw [h]

@[simp] theorem follow_strapPins (s : State) : (follow s).strapPins = s.strapPins := by
  obtain ⟨_, _, h⟩ := follow_changes s
  rw [h]

@[simp] theorem follow_inputs (s : State) : (follow s).inputs = s.inputs := by
  obtain ⟨_, _, h⟩ := follow_changes s
  rw [h]

@[simp] theorem follow_table (s : State) : (follow s).table = s.table := by
  obtain ⟨_, _, h⟩ := follow_changes s
  rw [h]

@[simp] theorem follow_timer (s : State) : (follow s).timer = s.timer := by
  obtain ⟨_, _, h⟩ := follow_changes s
  rw [h]

@[simp] theorem follow_alloc (s : State) : (follow s).alloc = s.alloc := by
  obtain ⟨_, _, h⟩ := follow_changes s
  rw [h]

@[simp] theorem follow_pumps (s : State) : (follow s).pumps = s.pumps := by
  obtain ⟨_, _, h⟩ := follow_changes s
  rw [h]

@[simp] theorem follow_players (s : State) : (follow s).players = s.players := by
  obtain ⟨_, _, h⟩ := follow_changes s
  rw [h]

@[simp] theorem follow_profile (s : State) : (follow s).profile = s.profile := by
  obtain ⟨_, _, h⟩ := follow_changes s
  rw [h]

@[simp] theorem follow_pointers (s : State) : (follow s).pointers = s.pointers := by
  obtain ⟨_, _, h⟩ := follow_changes s
  rw [h]

@[simp] theorem follow_drives (s : State) : (follow s).drives = s.drives := by
  obtain ⟨_, _, h⟩ := follow_changes s
  rw [h]

@[simp] theorem follow_line (s : State) : (follow s).line = s.line := by
  obtain ⟨_, _, h⟩ := follow_changes s
  rw [h]

@[simp] theorem follow_port (s : State) : (follow s).port = s.port := by
  obtain ⟨_, _, h⟩ := follow_changes s
  rw [h]

@[simp] theorem follow_free (s : State) : (follow s).free = s.free := by
  obtain ⟨_, _, h⟩ := follow_changes s
  rw [h]

@[simp] theorem follow_pending (s : State) : (follow s).pending = s.pending := by
  obtain ⟨_, _, h⟩ := follow_changes s
  rw [h]

/-! ### Entries to the pump states -/

/-- Two indices differ as numbers where they differ. -/
theorem PumpIx.val_ne {j k : PumpIx} (h : j ≠ k) : ¬ k.val = j.val := fun e => h (Fin.ext e.symm)

@[simp] theorem enterResting_pump_self (k : PumpIx) (s : State) : (enterResting k s).pump k = (s.pump k).toResting :=
  State.pump_setPump_self k _ s

@[simp] theorem enterResting_pump_of_ne {j k : PumpIx} (h : j ≠ k) (s : State) : (enterResting k s).pump j = s.pump j :=
  State.pump_setPump_of_ne (Ne.symm h) _ s

@[simp] theorem enterResting_player_self (k : PumpIx) (s : State) : (enterResting k s).player k = Player.idle 0 :=
  State.player_setPlayer_self k _ s

@[simp] theorem enterResting_player_of_ne {j k : PumpIx} (h : j ≠ k) (s : State) :
    (enterResting k s).player j = s.player j :=
  State.player_setPlayer_of_ne (Ne.symm h) _ s

@[simp] theorem enterResting_duty_self (k : PumpIx) (s : State) : (enterResting k s).drives.duty[k.val] = 0 :=
  Vector.getElem_set_self k.isLt

@[simp] theorem enterRampDown_pump_self (k : PumpIx) (s : State) :
    (enterRampDown k s).pump k = { (s.pump k).leaveRun with state := .rampDown } :=
  State.pump_setPump_self k _ s

@[simp] theorem enterRampDown_pump_of_ne {j k : PumpIx} (h : j ≠ k) (s : State) :
    (enterRampDown k s).pump j = s.pump j :=
  State.pump_setPump_of_ne (Ne.symm h) _ s

@[simp] theorem enterRampDown_player_self (k : PumpIx) (s : State) :
    (enterRampDown k s).player k = Player.beginPlay s.profile (s.pointers[k]).rate .oneShot (s.pointers[k]).down :=
  State.player_setPlayer_self k _ (s.setPump k _)

@[simp] theorem enterRampDown_player_of_ne {j k : PumpIx} (h : j ≠ k) (s : State) :
    (enterRampDown k s).player j = s.player j :=
  State.player_setPlayer_of_ne (Ne.symm h) _ (s.setPump k _)

@[simp] theorem enterRampUp_pump_self (k : PumpIx) (s : State) : (enterRampUp k s).pump k = (s.pump k).toRampUp :=
  State.pump_setPump_self k _ s

@[simp] theorem enterRampUp_pump_of_ne {j k : PumpIx} (h : j ≠ k) (s : State) : (enterRampUp k s).pump j = s.pump j :=
  State.pump_setPump_of_ne (Ne.symm h) _ s

@[simp] theorem enterRampUp_player_self (k : PumpIx) (s : State) :
    (enterRampUp k s).player k = Player.beginPlay s.profile (s.pointers[k]).rate .oneShot (s.pointers[k]).up :=
  State.player_setPlayer_self k _ (s.setPump k _)

@[simp] theorem enterRampUp_player_of_ne {j k : PumpIx} (h : j ≠ k) (s : State) :
    (enterRampUp k s).player j = s.player j :=
  State.player_setPlayer_of_ne (Ne.symm h) _ (s.setPump k _)

@[simp] theorem faultPump_pump_self (k : PumpIx) (c : FaultCause) (s : State) :
    (faultPump k c s).pump k = (s.pump k).toFaulted c :=
  State.pump_setPump_self k _ s

@[simp] theorem faultPump_pump_of_ne {j k : PumpIx} (h : j ≠ k) (c : FaultCause) (s : State) :
    (faultPump k c s).pump j = s.pump j :=
  State.pump_setPump_of_ne (Ne.symm h) _ s

@[simp] theorem faultPump_player_self (k : PumpIx) (c : FaultCause) (s : State) :
    (faultPump k c s).player k = Player.idle 0 :=
  State.player_setPlayer_self k _ s

@[simp] theorem faultPump_player_of_ne {j k : PumpIx} (h : j ≠ k) (c : FaultCause) (s : State) :
    (faultPump k c s).player j = s.player j :=
  State.player_setPlayer_of_ne (Ne.symm h) _ s

@[simp] theorem faultPump_duty_self (k : PumpIx) (c : FaultCause) (s : State) : (faultPump k c s).drives.duty[k.val] = 0 :=
  Vector.getElem_set_self k.isLt

@[simp] theorem faultPump_port (k : PumpIx) (c : FaultCause) (s : State) :
    (faultPump k c s).port = { s.port with flags := s.port.flags ||| 0b000010 } := rfl

/-! ### What follows an event, and the taking of a command -/

@[simp] theorem follow_pump (k : PumpIx) (s : State) : (follow s).pump k = s.pump k := by
  simp [State.pump]

@[simp] theorem follow_player (k : PumpIx) (s : State) : (follow s).player k = s.player k := by
  simp [State.player]

/-- The sampling mode does not move a sump. -/
@[simp] theorem syncSampling_sumpLow (k : PumpIx) (s : State) : (syncSampling s).sumpLow k = s.sumpLow k := by
  simp only [syncSampling]
  repeat' split
  all_goals rfl

/-- The sampling mode does not move the validity of the pending start. -/
@[simp] theorem syncSampling_pendingValid (s : State) : (syncSampling s).pendingValid = s.pendingValid := by
  have hs := fun k => syncSampling_sumpLow k s
  obtain ⟨g, h⟩ := syncSampling_changes s
  unfold State.pendingValid State.startValid
  simp only [hs]
  rw [h]
  rfl

/-- What follows an event at once makes of the arbiter a withdrawal or nothing (R69). -/
theorem follow_arb (s : State) :
    (follow s).arb =
      if s.arb.part = .contending ∧ s.pendingValid = false then { s.arb with part := .withdrawn, pendingStart := none }
      else s.arb := by
  have ha : (syncSampling s).arb = s.arb := by
    obtain ⟨g, h⟩ := syncSampling_changes s
    rw [h]
  unfold follow watchStart
  rw [syncSampling_pendingValid, ha]
  split
  · rfl
  · exact ha

/-- The arbiter stands where the station does not contend or its start is valid. -/
theorem follow_arb_of {s : State} (h : s.arb.part ≠ .contending ∨ s.pendingValid = true) : (follow s).arb = s.arb := by
  rw [follow_arb, if_neg]
  rcases h with h | h <;> simp [h]

@[simp] theorem follow_window (s : State) : (follow s).arb.window = s.arb.window := by
  rw [follow_arb]
  split <;> rfl

/-- An event acts while the blocks run. -/
theorem whenRunning_of_running {s : State} (h : s.cond = .running) (f : State → State) : whenRunning f s = follow (f s) := by
  simp [whenRunning, State.isRunning, h]

/-- No event acts in a reset, in the strap reading and in STRAP FAULT. -/
theorem whenRunning_of_not {s : State} (h : s.cond ≠ .running) (f : State → State) : whenRunning f s = s := by
  simp [whenRunning, State.isRunning, h]

/-- A command that is taken is judged by its own rule. -/
theorem takeCommand_of_takes {s : State} (h : s.takes) (work : State → State × Answer) :
    takeCommand work s = giveAnswer (work s).2 (work s).1 := by
  obtain ⟨hc, hs, ha⟩ := h
  simp [takeCommand, Port.ready, hc, hs, ha]

/-- No command is taken outside a transaction, or after another in the same one. -/
theorem takeCommand_of_not_ready {s : State} (h : s.port.selected = false ∨ s.port.answer.isSome = true)
    (work : State → State × Answer) : takeCommand work s = s := by
  have : s.port.ready = false := by
    rcases h with h | h
    · simp [Port.ready, h]
    · obtain ⟨_, h⟩ := Option.isSome_iff_exists.mp h
      simp [Port.ready, h]
  simp [takeCommand, this]

/-! ### Parameter characters -/

theorem pumpParameter_of_eq {c : Byte} {k : PumpIx} (h : c.toNat = k.val) : pumpParameter c = some k := by
  simp [pumpParameter, h]

theorem pumpParameter_of_gt {c : Byte} (h : 3 < c.toNat) : pumpParameter c = none := by
  have : ¬ c.toNat < 4 := by omega
  simp [pumpParameter, this]

theorem stationParameter_of_eq {c : Byte} {k : Station} (h : c.toNat = k.val) : stationParameter c = some k := by
  simp [stationParameter, h]

theorem stationParameter_of_gt {c : Byte} (h : 15 < c.toNat) : stationParameter c = none := by
  have : ¬ c.toNat < 16 := by omega
  simp [stationParameter, this]

theorem stepParameter_of_eq {c : Byte} {i : Fin 64} (h : c.toNat = i.val) : stepParameter c = some i := by
  simp [stepParameter, h]

theorem stepParameter_of_gt {c : Byte} (h : 63 < c.toNat) : stepParameter c = none := by
  have : ¬ c.toNat < 64 := by omega
  simp [stepParameter, this]

/-! ### The words of the statements and the model's tests -/

theorem State.pumpActive_iff (s : State) (k : PumpIx) : s.pumpActive k ↔ (s.pump k).state.active = true := by
  unfold State.pumpActive
  cases (s.pump k).state <;> decide

theorem State.pumpCommitted_iff (s : State) (k : PumpIx) : s.pumpCommitted k ↔ (s.pump k).state.committed = true := by
  unfold State.pumpCommitted
  cases (s.pump k).state <;> decide

theorem State.sumpIsLow_iff (s : State) (k : PumpIx) : s.sumpIsLow k ↔ s.sumpLow k = true := by
  unfold State.sumpIsLow State.sumpLow
  by_cases h : k.val < 2
  · have : ¬ 2 ≤ k.val := by omega
    simp [h, this]
  · have : 2 ≤ k.val := by omega
    simp [h, this]

theorem State.startIsValid_iff (s : State) (k : PumpIx) : s.startIsValid k ↔ s.startValid k = true := by
  simp [State.startIsValid, State.startValid, State.sumpIsLow_iff, districtStop, startHold, and_assoc]

/-- The pending start is valid where it names a pump whose start is. -/
theorem State.pendingValid_iff (s : State) :
    s.pendingValid = true ↔ ∃ k, s.arb.pendingStart = some k ∧ s.startIsValid k := by
  unfold State.pendingValid
  cases s.arb.pendingStart with
  | none => simp
  | some k => simp [State.startIsValid_iff]

theorem State.committed_eq (s : State) : s.committed = s.committedDischarge := by
  have h : ∀ k, (s.pump k).state.committed = decide ((s.pump k).state ∈ ([.priming, .rampUp, .running] : List PumpState)) := by
    intro k
    cases (s.pump k).state <;> decide
  simp only [State.committed, State.committedDischarge, countPumps, pumpList, State.rating, StrapLevels.pumpRating, h]
  exact Nat.mul_comm _ _

theorem State.installed_eq (s : State) : s.installed = s.availableDischarge := by
  have h : ∀ k, s.available k = (decide ((s.pump k).state ∈
      ([.idle, .resting, .priming, .rampUp, .running, .rampDown] : List PumpState)) &&
        !(if k.val < 2 then s.gauge.sumpA.low else s.gauge.sumpB.low)) := by
    intro k
    simp only [State.available, State.sumpLow]
    cases (s.pump k).state <;> rfl
  simp only [State.installed, State.availableDischarge, countPumps, pumpList, State.rating, StrapLevels.pumpRating]
  rw [Nat.mul_comm, funext h]

/-- The entry of another station is the one held. -/
theorem State.entry_of_ne {s : State} {k : Station} (h : k ≠ s.own) : s.entry k = s.table.entries[k] := by
  simp [State.entry, h]

/-- The own entry is a live view while the blocks run. -/
theorem State.entry_own {s : State} (h : s.cond = .running) : s.entry s.own = s.ownEntry := by
  simp [State.entry, State.isRunning, h]

theorem State.isReferenceCandidate_iff (s : State) (k : Station) :
    s.isReferenceCandidate k ↔ s.referenceCandidate k = true := by
  unfold State.isReferenceCandidate State.referenceCandidate
  by_cases h : k = s.own
  · subst h
    cases s.timer.mode <;> simp [Mode.settled]
  · rw [State.entry_of_ne h]
    cases hf : (s.table.entries[k]).fields with
    | none => simp [h]
    | some f => cases hm : f.mode <;> simp [h, hm, Mode.settled]

/-- Every station number stands in the list of station numbers, in order. -/
theorem stationList_eq : stationList = List.finRange 16 := by decide

/-- The choice of R26 leaves the lowest-numbered candidate as the reference. -/
theorem chooseReference_chosen (s : State) : (chooseReference s).referenceChosen := by
  have e : ∀ k, (chooseReference s).isReferenceCandidate k ↔ s.referenceCandidate k = true :=
    fun k => State.isReferenceCandidate_iff s k
  refine ⟨fun k hk => ?_, fun hn k => ?_⟩
  · have hk : (List.finRange 16).find? s.referenceCandidate = some k := by
      rw [← stationList_eq]
      exact hk
    refine ⟨(e k).mpr (List.find?_some hk), fun j hj hc => ?_⟩
    obtain ⟨_, i, hi, hik, hmin⟩ := List.find?_eq_some_iff_getElem.mp hk
    have hki : k.val = i := by
      rw [← hik, List.getElem_finRange]
      rfl
    have := hmin j.val (by have hjk : j.val < k.val := hj; omega)
    simp only [List.getElem_finRange] at this
    simp_all
  · have hn : (List.finRange 16).find? s.referenceCandidate = none := by
      rw [← stationList_eq]
      exact hn
    have := List.find?_eq_none.mp hn k (List.mem_finRange k)
    rwa [e]

/-- The ageing of R13 acts on each entry alone. -/
@[simp] theorem ageEntries_getElem (v : Vector Entry 16) (k : Station) : (ageEntries v)[k] = (v[k]).aged := by
  simp [ageEntries, ← Vector.getElem_toArray, Vector.toList]

/-! ### Urgent stops -/

/-- What an urgent stop of pump `j` makes of pump `k`. -/
theorem urgentStop_pump (j k : PumpIx) (s : State) :
    (urgentStop j s).pump k = if j = k ∧ (s.pump k).state.active = true then (s.pump k).toResting else s.pump k := by
  unfold urgentStop
  by_cases h : j = k
  · subst h; split <;> simp_all
  · split <;> simp [h, Ne.symm h]

theorem urgentStop_player (j k : PumpIx) (s : State) :
    (urgentStop j s).player k = if j = k ∧ (s.pump k).state.active = true then Player.idle 0 else s.player k := by
  unfold urgentStop
  by_cases h : j = k
  · subst h; split <;> simp_all
  · split <;> simp [h, Ne.symm h]

theorem urgentStop_duty (j k : PumpIx) (s : State) :
    (urgentStop j s).drives.duty[k.val] = if j = k ∧ (s.pump k).state.active = true then 0 else s.drives.duty[k.val] := by
  unfold urgentStop
  by_cases h : j = k
  · subst h; split <;> simp_all
  · split <;> simp [h, enterResting, dropDrive, PumpIx.val_ne (Ne.symm h)]

/-- Urgent stops to the pumps of a list that a fixed test names. -/
theorem foldl_urgentStop (c : PumpIx → Bool) (k : PumpIx) (l : List PumpIx) (s : State) (hl : l.Nodup) :
    let t := l.foldl (fun s k => if c k then urgentStop k s else s) s
    let hit := k ∈ l ∧ c k = true ∧ (s.pump k).state.active = true
    t.pump k = (if hit then (s.pump k).toResting else s.pump k) ∧
    t.player k = (if hit then Player.idle 0 else s.player k) ∧
    t.drives.duty[k.val] = (if hit then 0 else s.drives.duty[k.val]) := by
  induction l generalizing s with
  | nil => simp
  | cons j l ih =>
    have hn := List.nodup_cons.mp hl
    obtain ⟨h₁, h₂, h₃⟩ := ih (if c j then urgentStop j s else s) hn.2
    simp only [List.foldl_cons]
    rw [h₁, h₂, h₃]
    by_cases hj : j = k
    · subst hj
      cases hc : c j <;> simp [hn.1, urgentStop_pump, urgentStop_player, urgentStop_duty]
    · have hm : k ∈ j :: l ↔ k ∈ l := by simp [Ne.symm hj]
      cases hc : c j <;> simp [hm, hj, urgentStop_pump, urgentStop_player, urgentStop_duty]

/-- The test of each pump is that of the sumps as the reading leaves them. -/
theorem stopLowPumps_eq (b s : State) :
    stopLowPumps b s = pumpList.foldl (fun x k => if s.sumpLow k && !b.sumpLow k then urgentStop k x else x) s := by
  have h : ∀ (l : List PumpIx) (x : State), x.gauge = s.gauge →
      l.foldl (fun x k => if x.sumpLow k && !b.sumpLow k then urgentStop k x else x) x =
        l.foldl (fun x k => if s.sumpLow k && !b.sumpLow k then urgentStop k x else x) x := by
    intro l
    induction l with
    | nil => intro _ _; rfl
    | cons k l ih =>
      intro x hx
      have e : x.sumpLow k = s.sumpLow k := by simp only [State.sumpLow, hx]
      simp only [List.foldl_cons, e]
      apply ih
      split
      · obtain ⟨_, _, _, h⟩ := urgentStop_changes k x
        rw [h]; exact hx
      · exact hx
  exact h pumpList s rfl

/-- What a polder reading makes of pump `k`: an urgent stop where its sump has become LOW. -/
theorem stopLowPumps_at (b s : State) (k : PumpIx) :
    let hit := (s.sumpLow k && !b.sumpLow k) = true ∧ (s.pump k).state.active = true
    (stopLowPumps b s).pump k = (if hit then (s.pump k).toResting else s.pump k) ∧
    (stopLowPumps b s).player k = (if hit then Player.idle 0 else s.player k) ∧
    (stopLowPumps b s).drives.duty[k.val] = (if hit then 0 else s.drives.duty[k.val]) := by
  have hk : k ∈ pumpList := by revert k; decide
  have h := foldl_urgentStop (fun k => s.sumpLow k && !b.sumpLow k) k pumpList s (by decide)
  rw [stopLowPumps_eq]
  simpa only [hk, true_and] using h

/-! ### The cable check and a frame of the active cable -/

/-- A frame valid on the active cable changes the check alone, as R154 says. -/
theorem checkActiveFrame_eq (cs : List Byte) (s : State) :
    checkActiveFrame cs s = { s with line := { s.line with check := s.line.check.afterActive cs } } := by
  have h : (recentArrivals s.line.check).head? = s.line.check.arrivals.find? (fun r => decide (r.age ≤ 1000)) :=
    List.head?_filter
  unfold checkActiveFrame CableCheck.afterActive
  simp only [Bool.and_eq_true]
  split
  · rw [← h]
    cases recentArrivals s.line.check <;> rfl
  · rfl

/-! ### Frames under way on a cable, and the schedule at their first start edge -/

/-- A cable replaced by itself changes nothing. -/
@[simp] theorem setCable_cable (c : Cable) (s : State) : setCable c (s.line.cable c) s = s := by cases c <;> rfl

theorem CableState.underWay_eq_some {x : CableState} {f : Assembly} :
    x.underWay = some f ↔ x.assembly = some f ∧ f.chars.length < f.kind.length := by
  unfold CableState.underWay Assembly.complete
  cases x.assembly with
  | none => simp
  | some g =>
    by_cases h : g.kind.length ≤ g.chars.length
    · simp only [Option.filter, h, Option.some.injEq]
      constructor
      · intro e; cases e
      · rintro ⟨rfl, h'⟩; omega
    · simp only [Option.filter, h, Option.some.injEq]
      constructor
      · intro e; cases e; exact ⟨rfl, by omega⟩
      · rintro ⟨rfl, _⟩; rfl

theorem CableState.overdue_iff (x : CableState) :
    x.overdue = true ↔ ∃ f, x.assembly = some f ∧ f.chars.length < f.kind.length ∧ 704 < f.sinceChar := by
  simp [CableState.overdue, Option.any_eq_true, CableState.underWay_eq_some, and_assoc]

/-- A frame under way is truncated: its cable counts a check failure while it is LOCKED, unless the frame is void. -/
theorem CableState.truncated_of_some {x : CableState} {f : Assembly} (h : x.underWay = some f) :
    x.truncated =
      { x with assembly := none
               checkCount := if f.void = false ∧ x.locked = true then min 255 (x.checkCount + 1) else x.checkCount } := by
  simp only [CableState.truncated, CableState.countCheck, satAdd, h]
  cases hv : f.void <;> cases hl : x.locked <;> simp [hl]

/-- Where no frame is under way there is nothing to truncate. -/
theorem CableState.truncated_of_none {x : CableState} (h : x.underWay = none) : x.truncated = x := by
  unfold CableState.truncated
  rw [h]

theorem RoundTimer.before_of_find_none {t : RoundTimer} {ago : Nat}
    (h : t.replaced.find? (fun r => decide (r.age ≤ ago)) = none) : t.before ago = scheduleBack ago t.phase t.count := by
  unfold RoundTimer.before
  rw [h]

theorem RoundTimer.before_of_find_some {t : RoundTimer} {ago : Nat} {r : Replaced}
    (h : t.replaced.find? (fun r => decide (r.age ≤ ago)) = some r) :
    t.before ago = scheduleBack (ago - r.age) r.phase r.count := by
  unfold RoundTimer.before
  rw [h]

/-! ### The sampling mode is settled -/

/-- The sampling mode stands as R135 asks. -/
def State.samplingSettled (s : State) : Prop :=
  s.gauge.sampling = if s.wantsContinuous then .continuous else .periodic

/-- What R135 looks at. -/
theorem State.wantsContinuous_congr {a b : State} (hp : a.pumps = b.pumps) (hA : a.gauge.sumpA = b.gauge.sumpA)
    (hB : a.gauge.sumpB = b.gauge.sumpB) (hh : a.gauge.polder.heldClass = b.gauge.polder.heldClass) :
    a.wantsContinuous = b.wantsContinuous := by
  simp only [State.wantsContinuous, State.anyActive, State.pump, hp, hA, hB, hh]

/-- The following of the sampling mode moves nothing that R135 looks at. -/
@[simp] theorem syncSampling_wantsContinuous (s : State) : (syncSampling s).wantsContinuous = s.wantsContinuous := by
  apply State.wantsContinuous_congr
  · obtain ⟨g, h⟩ := syncSampling_changes s
    rw [h]
  all_goals
    simp only [syncSampling, beginScans, GaugeGroup.beginScan]
    repeat' split
    all_goals rfl

theorem syncSampling_settled (s : State) : (syncSampling s).samplingSettled := by
  unfold State.samplingSettled
  rw [syncSampling_wantsContinuous]
  simp only [syncSampling]
  cases h₁ : s.gauge.sampling <;> cases h₂ : s.wantsContinuous <;> simp [beginScans, h₁]

/-- A settled mode is not changed. -/
theorem syncSampling_of_settled {s : State} (h : s.samplingSettled) : syncSampling s = s := by
  unfold State.samplingSettled at h
  cases h₂ : s.wantsContinuous <;> rw [h₂] at h <;> simp only [Bool.false_eq_true, if_false, if_true] at h <;>
    simp only [syncSampling, h, h₂]

@[simp] theorem syncSampling_idem (s : State) : syncSampling (syncSampling s) = syncSampling s :=
  syncSampling_of_settled (syncSampling_settled s)

/-- The mode is settled once the round end has been taken by the gauge unit. -/
theorem gaugeRoundEnd_settled (s : State) : (gaugeRoundEnd s).samplingSettled := by
  unfold gaugeRoundEnd
  split
  · exact syncSampling_settled _
  · have h := syncSampling_settled s
    cases hm : (syncSampling s).gauge.sampling with
    | continuous => simpa only [hm] using h
    | periodic =>
      simp only [hm]
      unfold State.samplingSettled at h
      rw [hm] at h
      refine Eq.trans h ?_
      rw [State.wantsContinuous_congr (a := syncSampling s)] <;> rfl

/-! ### The seconds of a run -/

/-- A second is due in RAMP_UP and RUNNING alone, at the instant its timer is down (R99). -/
theorem Pump.secondDue_iff (p : Pump) :
    p.secondDue = true ↔ (p.state = .rampUp ∨ p.state = .running) ∧ p.secondTimer = some 0 := by
  unfold Pump.secondDue
  cases p.state <;> simp [PumpState.runs]

theorem Pump.countDue_of_not {p : Pump} (h : p.secondDue = false) : p.countDue = p := by simp [Pump.countDue, h]

/-- The due second changes the run minutes, the accumulator and the timer alone. -/
theorem Pump.countDue_eq (p : Pump) :
    p.countDue = { p with runMinutes := p.countDue.runMinutes, accumulator := p.countDue.accumulator,
                          secondTimer := p.countDue.secondTimer } := by
  unfold Pump.countDue Pump.countSecond
  split
  · split <;> rfl
  · rfl

/-- The run minutes and the accumulator after the due second are those of R99. -/
theorem Pump.keepsWork_of_eq {p q : Pump} (hm : q.runMinutes = p.countDue.runMinutes)
    (ha : q.accumulator = p.countDue.accumulator) : p.keepsWork q := by
  unfold Pump.keepsWork
  dsimp only
  rw [← Pump.secondDue_iff, hm, ha]
  refine ⟨fun h => ?_, fun h h' => ?_, fun h h' => ?_⟩
  · have : p.secondDue = false := by simpa using h
    rw [Pump.countDue_of_not this]
    exact ⟨rfl, rfl⟩
  · have : ¬ 60 ≤ p.accumulator + 1 := by omega
    simp [Pump.countDue, h, Pump.countSecond, this]
  · have : 60 ≤ p.accumulator + 1 := by omega
    simp [Pump.countDue, h, Pump.countSecond, this, satAdd]

/-- What leaving RAMP_UP and RUNNING makes of a pump, with the due second counted. -/
theorem Pump.leaveRun_eq (p : Pump) :
    p.leaveRun =
      { p with finishing := false, feedbackTimer := none, supervised := false, missCount := 0, minRunTimer := none,
               pastMinRun := false, secondTimer := none, runMinutes := p.countDue.runMinutes,
               accumulator := p.countDue.accumulator } := by
  rw [Pump.leaveRun, Pump.countDue_eq]

theorem Pump.leaveRun_of_not {p : Pump} (h : p.state.runs = false) :
    p.leaveRun =
      { p with finishing := false, feedbackTimer := none, supervised := false, missCount := 0, minRunTimer := none,
               pastMinRun := false, secondTimer := none } := by
  rw [Pump.leaveRun, Pump.countDue_of_not]
  simp [Pump.secondDue, h]

theorem Pump.keepsWork_leaveRun (p : Pump) : p.keepsWork p.leaveRun := Pump.keepsWork_of_eq rfl rfl

/-! ### The pumps at a round end -/

theorem superviseFeedback_pump_of_ne {j k : PumpIx} (h : j ≠ k) (s : State) :
    (superviseFeedback k s).pump j = s.pump j ∧ (superviseFeedback k s).player j = s.player j := by
  simp only [superviseFeedback]
  repeat' split
  all_goals simp [h, Ne.symm h]

theorem pumpRoundEnd_pump_of_ne {j k : PumpIx} (h : j ≠ k) (b : Bool) (s : State) :
    (pumpRoundEnd b k s).pump j = s.pump j ∧ (pumpRoundEnd b k s).player j = s.player j := by
  have hs := superviseFeedback_pump_of_ne h s
  have hu : (urgentStop k s).pump j = s.pump j ∧ (urgentStop k s).player j = s.player j := by
    unfold urgentStop
    split <;> simp [h]
  unfold pumpRoundEnd
  repeat' split
  all_goals first
    | exact hs
    | exact hu

end Sys2Proof.Machine
end

