-- ==== Sys2Proof/Laws/Settle.lean ====
section
/-! SUPPORT. What the operations of the settle point do: the offers and the participants, the choices of a pump, and the stops. -/

namespace Sys2Proof.Machine

open Sys2Proof

/-! ### Lists of indices -/

theorem mem_stationList (k : Station) : k ∈ stationList := by revert k; decide

theorem mem_pumpList (k : PumpIx) : k ∈ pumpList := by revert k; decide

theorem mem_classesDown (c : Fin 8) : c ∈ classesDown := by revert c; decide

theorem stationList_sorted : stationList.Pairwise (· < ·) := by decide

theorem classesDown_sorted : classesDown.Pairwise (· > ·) := by decide

theorem pumpList_sorted : pumpList.Pairwise (· < ·) := by decide

/-! ### Figures -/

/-- D is the fraction of the available discharge that the class asks for. -/
theorem demandNow_eq (s : State) : s.demandNow = demandOf s.availableDischarge s.gauge.polder.heldClass := by
  rw [State.demandNow, State.installed_eq]
  cases s.gauge.polder.heldClass with
  | none => simp [demandQuarters, demandOf]
  | some c =>
    obtain ⟨c, hc⟩ := c
    simp only [demandQuarters, demandOf]
    interval_cases c <;> simp <;> omega

/-- A participant at class `c` is a heard entry of that class with its figures. -/
theorem State.participantAt_eq_some (s : State) (d : Nat) (c : Fin 8) (k : Station) (p : Participant) :
    s.participantAt d c k = some p ↔
      p.station = k ∧ ∃ f, (s.entry k).fields = some f ∧ (s.entry k).heard = true ∧ f.polderClass = some c ∧
        p.committed = f.committed ∧ p.demand = (if k = s.own then d else f.demand) := by
  unfold State.participantAt
  cases hf : (s.entry k).fields with
  | none => simp
  | some f =>
    by_cases h : ((s.entry k).heard && decide (f.polderClass = some c)) = true
    · simp only [h, if_true]
      simp only [Bool.and_eq_true, decide_eq_true_eq] at h
      constructor
      · intro hp
        obtain rfl := Option.some.inj hp
        exact ⟨rfl, f, rfl, h.1, h.2, rfl, rfl⟩
      · rintro ⟨h₁, g, h₂, _, _, h₅, h₆⟩
        obtain rfl := Option.some.inj h₂
        cases p
        simp_all
    · simp only [h]
      simp only [Bool.and_eq_true, decide_eq_true_eq, not_and] at h
      constructor
      · intro hp
        cases hp
      · rintro ⟨_, g, h₂, h₃, h₄, _⟩
        obtain rfl := Option.some.inj h₂
        exact absurd h₄ (h h₃)

/-! ### The passes of the allocation -/

/-- The keep pass keeps the participants in order, grants each its committed figure as far as the rest goes, and leaves what the
committed figures leave (R52). -/
theorem keepPass_spec (ps : List Participant) (r : Nat) :
    (keepPass r ps).1.map Prod.fst = ps ∧ (keepPass r ps).2 = r - (ps.map Participant.committed).sum ∧
    ∀ i, i < ps.length → ((keepPass r ps).1.map Prod.snd).getD i 0 =
      min ((ps.map Participant.committed).getD i 0) (r - ((ps.map Participant.committed).take i).sum) := by
  induction ps generalizing r with
  | nil => simp [keepPass]
  | cons p ps ih =>
    obtain ⟨a, b, c⟩ := ih (r - min p.committed r)
    simp only [keepPass]
    refine ⟨by simp [a], ?_, ?_⟩
    · simp only [b, List.map_cons, List.sum_cons]
      omega
    · intro i hi
      cases i with
      | zero => simp
      | succ i =>
        have := c i (by simpa using hi)
        simp only [List.map_cons, List.getD_cons_succ, this, List.take_succ_cons, List.sum_cons]
        congr 1
        omega

/-- The fill pass keeps the participants in order and raises each grant toward its demand as far as the rest goes (R53). -/
theorem fillPass_spec (gs : List (Participant × Nat)) (r : Nat) :
    let short := gs.map (fun g => g.1.demand - g.2)
    (fillPass r gs).1.map Prod.fst = gs.map Prod.fst ∧
    ∀ i, i < gs.length → ((fillPass r gs).1.map Prod.snd).getD i 0 =
      (gs.map Prod.snd).getD i 0 + min (short.getD i 0) (r - (short.take i).sum) := by
  induction gs generalizing r with
  | nil => simp [fillPass]
  | cons g gs ih =>
    obtain ⟨p, n⟩ := g
    obtain ⟨a, c⟩ := ih (r - min (p.demand - n) r)
    simp only [fillPass]
    refine ⟨by simp [a], ?_⟩
    intro i hi
    cases i with
    | zero => simp
    | succ i =>
      have := c i (by simpa using hi)
      simp only [List.map_cons, List.getD_cons_succ, this, List.take_succ_cons, List.sum_cons]
      congr 2
      omega

/-- The keep pass gives out what it takes from the rest. -/
theorem keepPass_total (ps : List Participant) (r : Nat) :
    ((keepPass r ps).1.map Prod.snd).sum + (keepPass r ps).2 = r := by
  induction ps generalizing r with
  | nil => simp [keepPass]
  | cons p ps ih =>
    have := ih (r - min p.committed r)
    simp only [keepPass, List.map_cons, List.sum_cons]
    omega

/-- The fill pass gives out what it takes from the rest. -/
theorem fillPass_total (gs : List (Participant × Nat)) (r : Nat) :
    ((fillPass r gs).1.map Prod.snd).sum + (fillPass r gs).2 = (gs.map Prod.snd).sum + r := by
  induction gs generalizing r with
  | nil => simp [fillPass]
  | cons g gs ih =>
    obtain ⟨p, n⟩ := g
    have := ih (r - min (p.demand - n) r)
    simp only [fillPass, List.map_cons, List.sum_cons]
    omega

/-! ### Choices of a pump -/

/-- The pump to be stopped first is one of the list. -/
theorem stopChoice_mem (s : State) (l : List PumpIx) (k : PumpIx) (h : stopChoice s l = some k) : k ∈ l := by
  induction l generalizing k with
  | nil => cases h
  | cons a l ih =>
    simp only [stopChoice] at h
    cases hl : stopChoice s l with
    | none =>
      rw [hl] at h
      obtain rfl := Option.some.inj h
      exact List.mem_cons_self
    | some j =>
      rw [hl] at h
      dsimp only at h
      split at h
      · obtain rfl := Option.some.inj h
        exact List.mem_cons_self
      · obtain rfl := Option.some.inj h
        exact List.mem_cons_of_mem _ (ih _ hl)

/-- A list with a pump in it gives a choice. -/
theorem stopChoice_eq_none (s : State) (l : List PumpIx) (h : stopChoice s l = none) : l = [] := by
  cases l with
  | nil => rfl
  | cons a l =>
    simp only [stopChoice] at h
    cases hl : stopChoice s l with
    | none =>
      rw [hl] at h
      cases h
    | some j =>
      rw [hl] at h
      dsimp only at h
      split at h <;> cases h

/-- The pump to be stopped first has the most run minutes and then the highest index of the list. -/
theorem stopChoice_greatest (s : State) (l : List PumpIx) (k : PumpIx) (h : stopChoice s l = some k) :
    ∀ j ∈ l, j ≠ k → (s.pump j).runMinutes < (s.pump k).runMinutes ∨
      ((s.pump j).runMinutes = (s.pump k).runMinutes ∧ j < k) := by
  induction l generalizing k with
  | nil => cases h
  | cons a l ih =>
    intro j hj hne
    simp only [stopChoice] at h
    cases hl : stopChoice s l with
    | none =>
      rw [hl] at h
      obtain rfl := Option.some.inj h
      have := stopChoice_eq_none s l hl
      subst this
      simp at hj
      exact absurd hj hne
    | some i =>
      rw [hl] at h
      dsimp only at h
      have ih := ih i hl
      split at h
      · rename_i hb
        obtain rfl := Option.some.inj h
        simp only [stopsBefore, Bool.or_eq_true, Bool.and_eq_true, decide_eq_true_eq] at hb
        have hj' : j ∈ l := by simpa [hne] using hj
        by_cases hji : j = i
        · subst hji
          exact hb
        · rcases hb with hb | hb <;> rcases ih j hj' hji with t | t
          · exact Or.inl (t.trans hb)
          · exact Or.inl (t.1.trans_lt hb)
          · exact Or.inl (t.trans_eq hb.1)
          · exact Or.inr ⟨t.1.trans hb.1, t.2.trans hb.2⟩
      · rename_i hb
        obtain rfl := Option.some.inj h
        rcases List.mem_cons.mp hj with rfl | hj'
        · simp only [stopsBefore, Bool.or_eq_true, Bool.and_eq_true, decide_eq_true_eq, not_or, not_and, not_lt] at hb
          rcases Nat.lt_or_eq_of_le hb.1 with g | g
          · exact Or.inl g
          · exact Or.inr ⟨g, lt_of_le_of_ne (hb.2 g.symm) hne⟩
        · exact ih j hj' hne

/-- The pump to be started first has the fewest run minutes and then the lowest index of the list. -/
theorem startChoice_least (s : State) (l : List PumpIx) (hl : l.Pairwise (· < ·)) :
    (∀ k, startChoice s l = some k → k ∈ l ∧ ∀ j ∈ l, j ≠ k →
      (s.pump k).runMinutes < (s.pump j).runMinutes ∨ ((s.pump k).runMinutes = (s.pump j).runMinutes ∧ k < j)) ∧
    (startChoice s l = none → l = []) := by
  induction l with
  | nil => exact ⟨fun k h => (by cases h), fun _ => rfl⟩
  | cons a l ih =>
    have ih := ih (List.Pairwise.of_cons hl)
    have ha := (List.pairwise_cons.mp hl).1
    simp only [startChoice]
    cases hc : startChoice s l with
    | none =>
      have := ih.2 hc
      subst this
      refine ⟨fun k h => ?_, fun h => by cases h⟩
      obtain rfl := Option.some.inj h
      simp
    | some j =>
      obtain ⟨m₁, m₂⟩ := ih.1 j hc
      dsimp only
      split
      · rename_i hb
        refine ⟨fun k h => ?_, fun h => by cases h⟩
        obtain rfl := Option.some.inj h
        refine ⟨List.mem_cons_self, fun i hi hne => ?_⟩
        have hi' : i ∈ l := by simpa [hne] using hi
        simp only [startsBefore, Bool.or_eq_true, Bool.and_eq_true, decide_eq_true_eq] at hb
        by_cases hij : i = j
        · subst hij
          exact hb
        · have h₂ := m₂ i hi' hij
          have hai : a < i := ha i hi'
          rcases hb with hb | hb <;> rcases h₂ with h₂ | h₂
          · exact Or.inl (hb.trans h₂)
          · exact Or.inl (hb.trans_eq h₂.1)
          · exact Or.inl (hb.1.trans_lt h₂)
          · exact Or.inr ⟨hb.1.trans h₂.1, hai⟩
      · rename_i hb
        refine ⟨fun k h => ?_, fun h => by cases h⟩
        obtain rfl := Option.some.inj h
        refine ⟨List.mem_cons_of_mem _ m₁, fun i hi hne => ?_⟩
        rcases List.mem_cons.mp hi with rfl | hi'
        · simp only [startsBefore, Bool.or_eq_true, Bool.and_eq_true, decide_eq_true_eq] at hb
          push Not at hb
          rcases Nat.lt_or_eq_of_le hb.1 with h | h
          · exact Or.inl h
          · exact absurd (hb.2 h.symm) (not_le.mpr (ha j m₁))
        · exact m₂ i hi' hne

/-- A pump that is shed counts for C. -/
theorem shedChoice_committed (s : State) (k : PumpIx) (h : shedChoice s = some k) : (s.pump k).state.committed = true := by
  unfold shedChoice at h
  split at h
  · rename_i j hj
    obtain rfl := Option.some.inj h
    have := List.find?_some hj
    cases hs : (s.pump j).state <;> simp_all [PumpState.starting, PumpState.committed]
  · have := stopChoice_mem s _ k h
    simp only [List.mem_filter, decide_eq_true_eq] at this
    simp [this.2, PumpState.committed]

/-- Where there is no pump to be shed, no pump counts for C. -/
theorem shedChoice_eq_none (s : State) (h : shedChoice s = none) (k : PumpIx) : (s.pump k).state.committed = false := by
  unfold shedChoice at h
  split at h
  · cases h
  · rename_i hf
    have h₁ := stopChoice_eq_none s _ h
    rw [List.filter_eq_nil_iff] at h₁
    have h₁ := h₁ k (mem_pumpList k)
    have h₂ := List.find?_eq_none.mp hf k (mem_pumpList k)
    cases hs : (s.pump k).state <;> simp_all [PumpState.starting, PumpState.committed]

/-! ### Stops -/

/-- A shed stop takes its pump out of C, to RESTING from PRIMING and to RAMP_DOWN otherwise, and touches no other. -/
theorem shedStop_committed (k : PumpIx) (s : State) (h : (s.pump k).state.committed = true) :
    ((shedStop k s).pump k).state.committed = false ∧
    (∀ j, j ≠ k → (shedStop k s).pump j = s.pump j ∧ (shedStop k s).player j = s.player j) ∧
    ((s.pump k).state = .priming ∧ ((shedStop k s).pump k).state = .resting ∨
      (s.pump k).state ≠ .priming ∧ ((shedStop k s).pump k).state = .rampDown ∧
        ((shedStop k s).player k).start = some (s.pointers[k]).down ∧ ((shedStop k s).player k).mode = some .oneShot) := by
  unfold shedStop
  cases hs : (s.pump k).state <;> simp [hs, PumpState.committed] at h <;>
    simp [Pump.toResting, PumpState.committed, Player.beginPlay, Player.beginStep]
  all_goals
    intro j hj
    simp [hj]

/-- A demand stop of a RUNNING pump past minimum run touches no other pump. -/
theorem demandStop_pump_of_ne {j k : PumpIx} (h : j ≠ k) (d : Bool) (s : State) :
    (demandStop d k s).pump j = s.pump j ∧ (demandStop d k s).player j = s.player j := by
  unfold demandStop markFinishing
  repeat' split
  all_goals simp [h, Ne.symm h]

/-- A demand stop is issued to a RUNNING pump past minimum run alone, without flood alarm and F1, and where C exceeds D by a
rating at least. -/
theorem demandStopChoice_eq_some (s : State) (k : PumpIx) (h : demandStopChoice s = some k) :
    (s.pump k).state = .running ∧ (s.pump k).pastMinRun = true ∧ s.gauge.flood = false ∧
      s.table.accepted.getLsbD 1 = false ∧ s.alloc.demand + s.rating ≤ s.committed := by
  simp only [demandStopChoice] at h
  split at h
  · cases h
  · rename_i h₁
    split at h
    · rename_i h₂
      have := stopChoice_mem s _ k h
      simp only [List.mem_filter, decide_eq_true_eq] at this
      simp only [districtStop, Bool.or_eq_true, not_or, Bool.not_eq_true] at h₁
      exact ⟨this.1.2, this.2, h₁.1.2, h₁.1.1, h₂⟩
    · cases h

/-- The settle point forms its figures whatever it stops. -/
theorem settleWork_alloc (s : State) :
    ∃ w b, (settleWork s).alloc = { settleFigures s with startWanted := w, shedSinceSettle := b } := by
  simp only [settleWork]
  split
  · obtain ⟨_, _, _, h⟩ := shedUntil_changes (settleFigures s).entitlement 4 { s with alloc := settleFigures s }
    rw [h]
    exact ⟨_, _, rfl⟩
  · split
    · rename_i k _
      obtain ⟨_, _, _, h⟩ := demandStop_changes false k { s with alloc := settleFigures s }
      rw [h]
      exact ⟨_, _, rfl⟩
    · exact ⟨_, _, rfl⟩

end Sys2Proof.Machine
end

