-- ==== Sys2Proof/Laws/Clock.lean ====
section
/-! SUPPORT. Which events are due: one lemma for each list of them, and one for all. -/

namespace Sys2Proof.Machine

open Sys2Proof

theorem mem_dueIf {b : Bool} {c d : Instr} : c ∈ dueIf b d ↔ b = true ∧ c = d := by
  unfold dueIf
  split <;> simp_all

theorem State.announces_iff (s : State) :
    s.announces = true ↔
      (s.timer.mode = .joining ∧ s.timer.aligned = true) ∨ s.timer.mode = .member ∨ s.timer.mode = .isolated := by
  unfold State.announces
  cases s.timer.mode <;> simp

theorem CableState.arrivalDue_iff (x : CableState) :
    x.arrivalDue = true ↔ ∃ f, x.assembly = some f ∧ f.kind.length ≤ f.chars.length ∧ 16 ≤ f.sinceChar := by
  unfold CableState.arrivalDue
  cases x.assembly <;> simp

/-- The schedule's events (R23, R24, R40). -/
theorem mem_dueSchedule {s : State} {c : Instr} :
    c ∈ dueSchedule s ↔
      (500000 ≤ s.timer.phase ∧ c = .roundEnd s.inputs) ∨
      (s.timer.phase = 448000 ∧ s.timer.settleTaken = false ∧ c = .settlePoint) ∨
      (s.timer.phase = 448000 ∧ s.timer.settleTaken = true ∧ s.timer.windowTaken = false ∧ c = .windowOpening) ∨
      (s.announces = true ∧ s.timer.announceTaken = false ∧ s.slotStart ≤ s.timer.phase ∧
        s.timer.phase ≤ s.slotStart + 1000 ∧ c = .ownSlotStart s.inputs) ∨
      (s.line.handed.isSome = true ∧ s.timer.phase = s.slotStart + 1000 ∧ c = .announcementTransmitBegin) := by
  simp [dueSchedule, mem_dueIf, and_assoc]

/-- The window's events and the end of an own frame (R64, R151). -/
theorem mem_dueWindow {s : State} {c : Instr} :
    c ∈ dueWindow s ↔
      (∃ w, s.arb.window = some w ∧ 7000 ≤ w.elapsed ∧ s.line.windowHold = true ∧ c = .lastBitEnd) ∨
      (∃ w, s.arb.window = some w ∧ 10000 ≤ w.elapsed ∧ w.holding = true ∧ s.line.tx = none ∧ s.arb.confirmClean = false ∧
        c = .confirmationBegin s.inputs) ∨
      (∃ w, s.arb.window = some w ∧ 32000 ≤ w.elapsed ∧ c = .windowEnd) ∨
      (∃ t, s.line.tx = some t ∧ t.returned = t.chars.length ∧ 352 * t.chars.length ≤ t.elapsed ∧ c = .transmissionEnd) ∨
      (s.arb.confirmClean = true ∧ c = .startTakenOrDropped s.inputs) := by
  unfold dueWindow
  cases s.arb.window <;> cases s.line.tx <;> simp [mem_dueIf, and_assoc]

/-- The events of reception and of the cable check (R142, R154, R155). -/
theorem mem_dueLine {s : State} {c : Instr} :
    c ∈ dueLine s ↔
      (s.line.a.arrivalDue = true ∧ c = .frameArrival .a s.inputs) ∨
      (s.line.b.arrivalDue = true ∧ c = .frameArrival .b s.inputs) ∨
      (s.line.a.overdue = true ∧ c = .frameTruncated .a) ∨
      (s.line.b.overdue = true ∧ c = .frameTruncated .b) ∨
      (∃ o rest, s.line.check.opened = o :: rest ∧ 1000 ≤ o.age ∧ c = .checkComparisonTimeout) ∨
      (s.line.check.pulse = some 0 ∧ c = .checkPulseEnd) := by
  unfold dueLine
  cases s.line.check.opened <;> simp [mem_dueIf]

/-- The events of a pump and of its player (R86, R87, R90 to R92, R99, R111). -/
theorem mem_duePump {s : State} {k : PumpIx} {c : Instr} :
    c ∈ duePump s k ↔
      ((s.pump k).state = .priming ∧ s.inputs.primeSense.getLsbD k.val = true ∧ c = .primeSenseAsserted k) ∨
      ((s.pump k).primeTimer = some 0 ∧ c = .primeTimerExpiry k) ∨
      ((s.pump k).feedbackTimer = some 0 ∧ c = .feedbackDueExpiry k (s.inputs.runFb.getLsbD k.val)) ∨
      ((s.pump k).minRunTimer = some 0 ∧ c = .minimumRunExpiry k) ∨
      ((s.pump k).restTimer = some 0 ∧ c = .restTimerExpiry k) ∨
      ((s.pump k).secondTimer = some 0 ∧ c = .runSecond k) ∨
      ((s.player k).playing = true ∧ (s.player k).step.isSome = true ∧ (s.player k).timeLeft = some 0 ∧
        c = .stepCompletion k) := by
  simp [duePump, mem_dueIf, and_assoc]

/-- Every event due in a running part is one of these. -/
theorem mem_due_of_running {s : State} (h : s.cond = .running) {c : Instr} :
    c ∈ due s ↔ c ∈ dueSchedule s ∨ c ∈ dueWindow s ∨ c ∈ dueLine s ∨ ∃ k, c ∈ duePump s k := by
  simp only [due, h, List.mem_append, List.mem_flatMap, mem_pumpList, true_and, or_assoc]

end Sys2Proof.Machine
end

