-- ==== Sys2Proof/Laws/Follow.lean ====
section
/-! SUPPORT. What `follow` leaves: the sampling mode at R135's conditions and a valid start in contention; and what a change that
is not followed may touch for both to stand. -/

namespace Sys2Proof.Machine

open Sys2Proof

/-- The words of R135 and the model's condition. -/
theorem State.samplingFits_iff (s : State) : s.samplingFits ↔ s.samplingSettled := by
  have hw : s.wantsContinuous = true ↔
      (∃ k, s.pumpActive k) ∨ s.gauge.sumpA.low = true ∨ s.gauge.sumpB.low = true ∨ s.gauge.polder.heldClass = none ∨
        ∃ c, s.gauge.polder.heldClass = some c ∧ 2 ≤ c.val := by
    simp only [State.wantsContinuous, State.anyActive, State.pumpActive_iff]
    cases s.gauge.polder.heldClass <;> simp [mem_pumpList, or_assoc]
  unfold State.samplingFits State.samplingSettled
  rw [← hw]
  cases s.gauge.sampling <;> cases s.wantsContinuous <;> simp

theorem State.contenderIsValid_iff (s : State) :
    s.contenderIsValid ↔ (s.arb.part = .contending → s.pendingValid = true) := by
  unfold State.contenderIsValid
  rw [State.pendingValid_iff]

/-- A settled start is not touched. -/
theorem watchStart_of_valid {s : State} (h : s.contenderIsValid) : watchStart s = s := by
  rw [State.contenderIsValid_iff] at h
  unfold watchStart
  rw [if_neg]
  rintro ⟨hc, hv⟩
  simp [h hc] at hv

theorem watchStart_contenderIsValid (s : State) : (watchStart s).contenderIsValid := by
  rw [State.contenderIsValid_iff]
  unfold watchStart
  split
  · simp
  · rename_i h
    intro hc
    cases hv : s.pendingValid
    · exact absurd ⟨hc, hv⟩ h
    · rfl

/-- The watch of a start moves nothing that R135 looks at. -/
theorem watchStart_samplingSettled {s : State} (h : s.samplingSettled) : (watchStart s).samplingSettled := by
  obtain ⟨a, e⟩ := watchStart_changes s
  rw [e]
  exact h

theorem follow_samplingFits (s : State) : (follow s).samplingFits := by
  rw [State.samplingFits_iff]
  exact watchStart_samplingSettled (syncSampling_settled s)

theorem follow_contenderIsValid (s : State) : (follow s).contenderIsValid := watchStart_contenderIsValid _

/-- A state in which mode and watch have followed is not changed. -/
theorem follow_of_followed {s : State} (hm : s.samplingFits) (hv : s.contenderIsValid) : follow s = s := by
  unfold follow
  rw [syncSampling_of_settled ((State.samplingFits_iff s).1 hm), watchStart_of_valid hv]

@[simp] theorem follow_idem (s : State) : follow (follow s) = follow s :=
  follow_of_followed (follow_samplingFits s) (follow_contenderIsValid s)

/-- The sampling mode does not look at the arbiter. -/
theorem syncSampling_with_arb (a : Arbiter) (s : State) :
    syncSampling { s with arb := a } = { syncSampling s with arb := a } := by
  have h : ({ s with arb := a } : State).wantsContinuous = s.wantsContinuous := State.wantsContinuous_congr rfl rfl rfl rfl
  simp only [syncSampling, h]
  cases s.gauge.sampling <;> cases s.wantsContinuous <;> rfl

/-- The arbiter that `follow` leaves may stand in the place of the one it found: so a command's next state is `follow` of its own
arbiter and of the fields that its own work changes. -/
theorem follow_with_arb (s : State) : follow { s with arb := (follow s).arb } = follow s := by
  have h : ({ syncSampling s with arb := (follow s).arb } : State) = follow s := by
    obtain ⟨a, e⟩ := watchStart_changes (syncSampling s)
    rw [follow, e]
  unfold follow
  rw [syncSampling_with_arb]
  exact (congrArg watchStart h).trans (watchStart_of_valid (follow_contenderIsValid s))

/-- In a running part every event leaves the mode and the watch followed. -/
theorem follow_followed {s : State} (h : s.cond = .running) : (follow s).followed :=
  ⟨follow_samplingFits s, follow_contenderIsValid s, fun hn => absurd (by rw [follow_frame]; exact h) hn⟩

/-- With the polder class unknown, sampling CONTINUOUS and no start in contention, both stand: so a reset leaves them. -/
theorem State.followed_of_unknown {s : State} (hs : s.gauge.sampling = .continuous) (hh : s.gauge.polder.heldClass = none)
    (hp : s.arb.part ≠ .contending) : s.followed :=
  ⟨⟨fun _ => .inr (.inr (.inr (.inl hh))), fun _ => hs⟩, fun h => absurd h hp, fun _ => ⟨hh, hp⟩⟩

/-- What keeps both without a `follow`: everything that R69 and R135 look at stands, no pump becomes active or ceases to be, and no
pump leaves IDLE. -/
theorem State.followed_of_same {s t : State} (h : s.followed) (hc : t.cond = s.cond)
    (hg : t.gauge.sampling = s.gauge.sampling ∧ t.gauge.sumpA = s.gauge.sumpA ∧ t.gauge.sumpB = s.gauge.sumpB ∧
      t.gauge.polder.heldClass = s.gauge.polder.heldClass)
    (ha : t.arb.part = s.arb.part ∧ t.arb.pendingStart = s.arb.pendingStart) (hm : t.timer.mode = s.timer.mode)
    (ht : t.table.accepted = s.table.accepted) (hs : t.alloc.shedSinceSettle = s.alloc.shedSinceSettle)
    (hp : ∀ k, (t.pump k).state.active = (s.pump k).state.active ∧ ((s.pump k).state = .idle → (t.pump k).state = .idle)) :
    t.followed := by
  obtain ⟨g₁, g₂, g₃, g₄⟩ := hg
  obtain ⟨a₁, a₂⟩ := ha
  simp only [State.followed, State.samplingFits, State.contenderIsValid, State.startIsValid, State.sumpIsLow,
    State.pumpActive_iff, (hp _).1, hc, g₁, g₂, g₃, g₄, a₁, a₂, hm, ht, hs] at h ⊢
  obtain ⟨h₁, h₂, h₃⟩ := h
  refine ⟨h₁, fun hpart => ?_, h₃⟩
  obtain ⟨k, hk, i, rest⟩ := h₂ hpart
  exact ⟨k, hk, (hp k).2 i, rest⟩

end Sys2Proof.Machine
end

