-- ==== Sys2Proof/Laws/PerInstr.lean ====
section
/-! SUPPORT. Statements made of each command as syntax. The family `ServiceCharacters`: a service command has as many
parameter characters as R169 gives its command character, and the row UNKNOWN bears a character that names no command. -/

namespace Sys2Proof.Laws.ServiceCharacters

open Sys2Proof

/-- The command character and the parameter characters of a well-formed command agree with R168 and R169. -/
def Statement (i : Instr) : Prop :=
  ∀ code, i.serviceCode = some code → WellFormed i = true →
    parameterCount code = some i.parameters.length ∨ (parameterCount code = none ∧ i = .unknown code)

theorem coldReset : Statement .coldReset := by
  intro c h _
  simp [Instr.serviceCode] at h

theorem warmReset (low : Nat) : Statement (.warmReset low) := by
  intro c h _
  simp [Instr.serviceCode] at h

theorem strapReadingComplete (levels : StrapLevels) : Statement (.strapReadingComplete levels) := by
  intro c h _
  simp [Instr.serviceCode] at h

theorem roundEnd (inp : Inputs) : Statement (.roundEnd inp) := by
  intro c h _
  simp [Instr.serviceCode] at h

theorem settlePoint : Statement .settlePoint := by
  intro c h _
  simp [Instr.serviceCode] at h

theorem windowOpening : Statement .windowOpening := by
  intro c h _
  simp [Instr.serviceCode] at h

theorem arbitrationBitReading (driven : DrivenLevels) : Statement (.arbitrationBitReading driven) := by
  intro c h _
  simp [Instr.serviceCode] at h

theorem lastBitEnd : Statement .lastBitEnd := by
  intro c h _
  simp [Instr.serviceCode] at h

theorem confirmationBegin (inp : Inputs) : Statement (.confirmationBegin inp) := by
  intro c h _
  simp [Instr.serviceCode] at h

theorem startTakenOrDropped (inp : Inputs) : Statement (.startTakenOrDropped inp) := by
  intro c h _
  simp [Instr.serviceCode] at h

theorem windowEnd : Statement .windowEnd := by
  intro c h _
  simp [Instr.serviceCode] at h

theorem ownSlotStart (inp : Inputs) : Statement (.ownSlotStart inp) := by
  intro c h _
  simp [Instr.serviceCode] at h

theorem announcementTransmitBegin : Statement .announcementTransmitBegin := by
  intro c h _
  simp [Instr.serviceCode] at h

theorem characterReadBack (onA onB : Returned) (inp : Inputs) : Statement (.characterReadBack onA onB inp) := by
  intro c h _
  simp [Instr.serviceCode] at h

theorem foreignEdgeOnFrame (inp : Inputs) : Statement (.foreignEdgeOnFrame inp) := by
  intro c h _
  simp [Instr.serviceCode] at h

theorem transmissionEnd : Statement .transmissionEnd := by
  intro c h _
  simp [Instr.serviceCode] at h

theorem characterComplete (c : Cable) (r : Readings) : Statement (.characterComplete c r) := by
  intro c h _
  simp [Instr.serviceCode] at h

theorem frameArrival (c : Cable) (inp : Inputs) : Statement (.frameArrival c inp) := by
  intro c h _
  simp [Instr.serviceCode] at h

theorem frameTruncated (c : Cable) : Statement (.frameTruncated c) := by
  intro c h _
  simp [Instr.serviceCode] at h

theorem checkComparisonTimeout : Statement .checkComparisonTimeout := by
  intro c h _
  simp [Instr.serviceCode] at h

theorem checkPulseEnd : Statement .checkPulseEnd := by
  intro c h _
  simp [Instr.serviceCode] at h

theorem primeSenseAsserted (k : PumpIx) : Statement (.primeSenseAsserted k) := by
  intro c h _
  simp [Instr.serviceCode] at h

theorem primeTimerExpiry (k : PumpIx) : Statement (.primeTimerExpiry k) := by
  intro c h _
  simp [Instr.serviceCode] at h

theorem feedbackDueExpiry (k : PumpIx) (runFb : Bool) : Statement (.feedbackDueExpiry k runFb) := by
  intro c h _
  simp [Instr.serviceCode] at h

theorem minimumRunExpiry (k : PumpIx) : Statement (.minimumRunExpiry k) := by
  intro c h _
  simp [Instr.serviceCode] at h

theorem restTimerExpiry (k : PumpIx) : Statement (.restTimerExpiry k) := by
  intro c h _
  simp [Instr.serviceCode] at h

theorem runSecond (k : PumpIx) : Statement (.runSecond k) := by
  intro c h _
  simp [Instr.serviceCode] at h

theorem stepCompletion (k : PumpIx) : Statement (.stepCompletion k) := by
  intro c h _
  simp [Instr.serviceCode] at h

theorem countingWindowEnd (g : ProbeGroup) (probeCycles referenceCycles : Nat) : Statement (.countingWindowEnd g probeCycles referenceCycles) := by
  intro c h _
  simp [Instr.serviceCode] at h

theorem transactionBegin : Statement .transactionBegin := by
  intro c h _
  simp [Instr.serviceCode] at h

theorem transactionEnd : Statement .transactionEnd := by
  intro c h _
  simp [Instr.serviceCode] at h

theorem readStation : Statement .readStation := by
  intro c h _
  obtain rfl := Option.some.inj h
  exact Or.inl rfl

theorem readEntry (k : Byte) (inp : Inputs) : Statement (.readEntry k inp) := by
  intro c h _
  obtain rfl := Option.some.inj h
  exact Or.inl rfl

theorem readPump (k : Byte) : Statement (.readPump k) := by
  intro c h _
  obtain rfl := Option.some.inj h
  exact Or.inl rfl

theorem readProbe (g p : Byte) : Statement (.readProbe g p) := by
  intro c h _
  obtain rfl := Option.some.inj h
  exact Or.inl rfl

theorem readCables : Statement .readCables := by
  intro c h _
  obtain rfl := Option.some.inj h
  exact Or.inl rfl

theorem readFlagChanges : Statement .readFlagChanges := by
  intro c h _
  obtain rfl := Option.some.inj h
  exact Or.inl rfl

theorem writeStep (ix sp h m : Byte) : Statement (.writeStep ix sp h m) := by
  intro c h _
  obtain rfl := Option.some.inj h
  exact Or.inl rfl

theorem writePointers (k u r d q : Byte) : Statement (.writePointers k u r d q) := by
  intro c h _
  obtain rfl := Option.some.inj h
  exact Or.inl rfl

theorem holdPump (k : Byte) : Statement (.holdPump k) := by
  intro c h _
  obtain rfl := Option.some.inj h
  exact Or.inl rfl

theorem releasePump (k : Byte) : Statement (.releasePump k) := by
  intro c h _
  obtain rfl := Option.some.inj h
  exact Or.inl rfl

theorem clearFault (k : Byte) : Statement (.clearFault k) := by
  intro c h _
  obtain rfl := Option.some.inj h
  exact Or.inl rfl

theorem setRunMinutes (k : Byte) (m : BitVec 24) : Statement (.setRunMinutes k m) := by
  intro c h _
  obtain rfl := Option.some.inj h
  exact Or.inl rfl

theorem selectCable (c : Byte) : Statement (.selectCable c) := by
  intro c h _
  obtain rfl := Option.some.inj h
  exact Or.inl rfl

theorem startCheck (n : Byte) : Statement (.startCheck n) := by
  intro c h _
  obtain rfl := Option.some.inj h
  exact Or.inl rfl

theorem stopCheck : Statement .stopCheck := by
  intro c h _
  obtain rfl := Option.some.inj h
  exact Or.inl rfl

theorem forgetEntry (k : Byte) : Statement (.forgetEntry k) := by
  intro c h _
  obtain rfl := Option.some.inj h
  exact Or.inl rfl

theorem clearCounters : Statement .clearCounters := by
  intro c h _
  obtain rfl := Option.some.inj h
  exact Or.inl rfl

theorem setAttentionMask (m : Byte) : Statement (.setAttentionMask m) := by
  intro c h _
  obtain rfl := Option.some.inj h
  exact Or.inl rfl

theorem clearAttention (m : Byte) : Statement (.clearAttention m) := by
  intro c h _
  obtain rfl := Option.some.inj h
  exact Or.inl rfl

theorem unknown (code : Byte) : Statement (.unknown code) := by
  intro c h w
  obtain rfl : code = c := by simpa [Instr.serviceCode] using h
  simp only [WellFormed, Option.isNone_iff_eq_none] at w
  exact Or.inr ⟨w, rfl⟩

theorem resetEnd : Statement .resetEnd := by
  intro c h _
  simp [Instr.serviceCode] at h

theorem windowDrivenLevel : Statement .windowDrivenLevel := by
  intro c h _
  simp [Instr.serviceCode] at h

theorem decoderInputReleased (c : Cable) : Statement (.decoderInputReleased c) := by
  intro c h _
  simp [Instr.serviceCode] at h

end Sys2Proof.Laws.ServiceCharacters
end

