-- ==== Sys2Proof/Tests/Slice0.lean ====
section
/-! SUPPORT. The model's own tests: the smoke test of WellFormed, figures worked in the spec, one step of each kind of command
on a small state, and for every obligation with hypotheses a state and operands that meet them. -/

namespace Sys2Proof.Tests.Slice0

open Sys2Proof Sys2Proof.Machine

set_option Elab.async false

/-! ### Small states -/

/-- Station 5 with four fixed-speed pumps of 3 du, island share 2, offer curve 1 and fallback quota 24. -/
def levels : StrapLevels := ⟨0, 5, 3, 2, 2, 1, 3, 0⟩

/-- The state a command leaves. -/
def after (c : Instr) (s : State) : State :=
  match exec c s with
  | .next t => t
  | .fault _ => s
  | .refused _ => s

/-- The part right after its strap reading. -/
def fresh : State := after (.strapReadingComplete levels) State.reset

/-- The part as a MEMBER of its district, with start wanted for pump 1 and enough free windows. -/
def member : State :=
  { fresh with timer := { fresh.timer with mode := .member }
               alloc := { fresh.alloc with startWanted := some 1, entitlement := 12, demand := 12, target := 12 }
               arb := { fresh.arb with freeWindows := 4 } }

/-- The window of `member` opened, with `n` bits read. -/
def contending (n : Nat) : State :=
  let s := after .windowOpening member
  { s with arb := { s.arb with window := s.arb.window.map (fun w => { w with bitsRead := n, elapsed := 1000 * n + 500 }) } }

/-- The window won. -/
def won : State := after .lastBitEnd (contending 7)

/-- The confirmation under way, `n` of its characters returned. -/
def confirming (n : Nat) : State :=
  let s := after (.confirmationBegin .idle) won
  { s with line := { s.line with tx := s.line.tx.map (fun t => { t with returned := n }) } }

/-- The confirmation clean. -/
def clean : State := after .transmissionEnd (confirming 4)

/-- Pump 0 of `fresh` in state `st`, its other fields given by `f`, its player by `q`. -/
def pumpAs (f : Pump → Pump) (q : Player → Player) : State :=
  (fresh.setPump 0 (f (fresh.pump 0))).setPlayer 0 (q (fresh.player 0))

/-- Pump 0 in RAMP_UP with its up play begun. -/
def rampingUp : State := enterRampUp 0 (pumpAs (fun p => { p with state := .priming }) id)

/-- Pump 0 RUNNING with no play. -/
def runningPump : State := pumpAs (fun p => { p with state := .running, minRunTimer := some 1 }) id

/-- A transaction is open. -/
def open₁ (s : State) : State := after .transactionBegin s

/-- An announcement of station `k` in mode code `m`, with round count `n`, class 6, demand 12, committed 8, island 4, no offer,
flag F2. -/
def announced (k m n : Nat) : List Byte :=
  let body : List Byte :=
    [0x5A, BitVec.ofNat 8 (k + 16 * m), BitVec.ofNat 8 (n / 256), BitVec.ofNat 8 n, 6, 12, 8, 4, 63, 4, 0x55]
  body ++ word16Chars (crc16 body)

/-- A frame collected on cable A, with its own phase at the first edge. -/
def collected (kind : FrameKind) (cs : List Byte) (phase : Nat) (s : State) : State :=
  let f : Assembly :=
    { kind := kind, chars := cs, void := false, edgeAge := 4576, edgePhase := phase, edgeCount := s.timer.count, sinceChar := 16 }
  { s with line := { s.line with a := { s.line.a with assembly := some f } } }

/-- An entry of a MEMBER station. -/
def heard (age : Nat) (cls : Option (Fin 8)) (demand committed : Nat) (offer : Option Nat) : Entry :=
  { status := statusOfAge age, age := age
    fields := some { mode := .member, polderClass := cls, flood := false, demand := demand, committed := committed,
                     island := 3, offer := offer, flags := 0, summary := 0 }
    startSeen := none, lastCount := some 0 }

/-! ### WellFormed and decoding -/

/-- A character that names a command is no UNKNOWN. -/
theorem test_wellformed_refuses_unknown_of_a_command : WellFormed (.unknown 0x10) = false := by decide

/-- A pulse of 99 µs on RESET is no warm reset, one of 100 µs is. -/
theorem test_wellformed_refuses_a_short_reset : WellFormed (.warmReset 99) = false ∧ WellFormed (.warmReset 100) = true := by
  decide

theorem test_wellformed_admits_the_rest : WellFormed (.unknown 0x16) = true ∧ WellFormed (.readPump 200) = true := by decide

/-- The codes of R179: a word's first character picks the command, and its parameters follow. -/
theorem test_words_spell_the_service_commands :
    decodeTableWord 8 0x10 = some .readStation ∧ decodeTableWord 16 0x0312 = some (.readPump 3) ∧
      decodeTableWord 40 0x010A280520 = some (.writeStep 5 40 10 1) ∧ decodeTableWord 8 0x42 = some .stopCheck ∧
      decodeTableWord 16 0x0030 = some (.holdPump 0) ∧ decodeTableWord 8 0x30 = none ∧ decodeTableWord 8 0xFF = some (.unknown 0xFF) ∧
      decodeTableWord 7 0x10 = none ∧ (State.reset.withFetchWord 16 0x0060).pending = [.setAttentionMask 0] := by decide

/-- A word put in front of the queue is the command that the next step runs. -/
theorem test_a_fetched_word_runs :
    ∃ t, step ((open₁ fresh).withFetchWord 8 0x14) = .next t ∧ t.port.answer = some [0xA0, 0, 0, 0, 0, 0, 0, 0, 0, 0, 0] :=
  ⟨_, rfl, by decide +kernel⟩

/-- The characters of WRITE STEP, SET RUN MINUTES and an unknown command, read as R169 and R179 give them. -/
theorem test_service_characters :
    serviceCommand .idle [0x20, 5, 40, 10, 1] = some (.writeStep 5 40 10 1) ∧
      serviceCommand .idle [0x33, 2, 0x01, 0x02, 0x03] = some (.setRunMinutes 2 0x010203) ∧
      serviceCommand .idle [0x16] = some (.unknown 0x16) ∧ serviceCommand .idle [0x20, 5] = none := by decide

/-! ### Figures worked in the spec -/

/-- The start of window 8400 of chapter 4: the check of a confirmation. -/
theorem test_crc8_of_a_confirmation :
    crc8 [0xC3] = 0x47 ∧ crc8 [0xC3, 0x2C] = 0x16 ∧ crc8 [0xC3, 0x2C, 0x05] = 0x79 ∧
      confirmationChars 12 2 5 = [0xC3, 0x2C, 0x05, 0x79] := by decide +kernel

/-- The thresholds of section 7 at PROBE level 0: T1 = 32 and T7 = 128. -/
theorem test_thresholds : classThreshold 0 1 = 32 ∧ classThreshold 0 7 = 128 ∧ classThreshold 7 7 = 226 := by decide

/-- A start with urgency 5 at station 6: the word 0100110 of section 12.1. -/
theorem test_arbitration_word : arbitrationWord 5 6 = 0b0100110 ∧ arbitrationWord 6 5 = 0b0010101 := by decide

/-- The figures of section 12.2: against Qd 24, four stations that each run 8 du are granted 8, 8, 8 and 0. -/
theorem test_grants_of_a_rising_river :
    (keepPass 24 [⟨0, 8, 12⟩, ⟨3, 8, 12⟩, ⟨6, 8, 12⟩, ⟨9, 8, 12⟩]).1.map Prod.snd = [8, 8, 8, 0] := by decide

/-- Station 2 of the allocation example of chapter 3: three pumps of 4 du, pump 0 RUNNING and pump 1 in RAMP_UP. -/
def exampleStation : State :=
  let s := after (.strapReadingComplete ⟨0, 2, 2, 3, 3, 0, 0, 0⟩) State.reset
  let pumps : Vector Pump 4 :=
    #v[{ s.pump 0 with state := .running, runMinutes := 5120 }, { s.pump 1 with state := .rampUp }, s.pump 2, s.pump 3]
  let entries := (((((s.table.entries.set 0 (heard 0 (some 2) 4 4 (some 40))).set 1 (heard 0 (some 6) 12 8 none)).set 5
    (heard 3 (some 6) 10 6 none)).set 7 (heard 0 (some 3) 6 0 none)).set 9 (heard 20 none 0 12 none)).set 11
    (heard 0 none 0 0 (some 40))
  let polder : GaugeGroup := { s.gauge.polder with heldClass := some 5 }
  { s with timer := { s.timer with mode := .member, count := 8200 }, gauge := { s.gauge with polder := polder },
           pumps := pumps, table := { s.table with entries := entries } }

/-- Its settle point gives D 12, Qd 40, E 8 and T 8, and no start is wanted. -/
theorem test_allocation_example :
    let a := (after .settlePoint exampleStation).alloc
    (a.demand, a.qd, a.entitlement, a.target, a.startWanted) = (12, 40, 8, 8, none) := by decide +kernel

/-- READ FLAG CHANGES of two records with no overrun answers seven characters and empties the queue (R21, R180). -/
theorem test_read_flag_changes :
    let s := open₁ { fresh with table := { fresh.table with queue := [⟨0b1000, 6121⟩] } }
    let t := after .readFlagChanges s
    t.port.answer = some [0xA0, 0x01, 0x08, 0x17, 0xE9, 0, 0, 0] ∧ t.table.queue = [] := by decide +kernel

/-! ### One step of each kind of command -/

theorem test_step_takes_the_front :
    step { State.reset with pending := [.transactionBegin, .readCables] } =
      .next { open₁ State.reset with pending := [.readCables] } := by rfl

theorem test_busy_while_straps_are_read :
    (after .readCables (open₁ State.reset)).port.answer = some [0xA1] := by decide +kernel

theorem test_strap_fault :
    let s := after (.strapReadingComplete ⟨2, 0, 0, 0, 0, 0, 0, 0⟩) State.reset
    s.cond = .strapFault ∧ s.attnLow = true ∧ (after (.readPump 0) (open₁ s)).port.answer = some [0xA4] := by decide +kernel

theorem test_round_ends_make_a_member :
    let marked := fun (s : State) => { s with timer := { s.timer with roundMarked := true } }
    let s := marked (after (.roundEnd .idle) (marked fresh))
    (after (.roundEnd .idle) s).timer.mode = .member ∧ (after (.roundEnd .idle) s).timer.count = 2 := by decide +kernel

theorem test_window_is_won_confirmed_and_its_pump_started :
    (contending 0).arb.part = .contending ∧ won.arb.part = .won ∧ clean.arb.confirmClean = true ∧
      ((after (.startTakenOrDropped .idle) clean).pump 1).state = .priming := by decide +kernel

theorem test_a_loss_withdraws :
    let s := after (.arbitrationBitReading ⟨true, false⟩) (contending 0)
    s.arb.part = .withdrawn ∧ s.arb.lastResult = .loss := by decide +kernel

theorem test_window_end_counts_a_free_window :
    (after .windowEnd (contending 7)).arb.freeWindows = 5 ∧
      (after .windowEnd (after .windowDrivenLevel (contending 7))).arb.freeWindows = 0 := by decide +kernel

theorem test_frame_of_a_sister_is_accepted :
    let s := after (.frameArrival .a .idle) (collected .announcement (announced 3 1 0) 85000 fresh)
    (s.table.entries[3]).status = .fresh ∧ s.timer.aligned = true ∧ s.timer.reference = some 3 ∧
      s.timer.phase = 28000 * 3 + 1000 + 4576 := by decide +kernel

theorem test_own_frame_is_composed_and_begun :
    let s := after (.ownSlotStart .idle) { fresh with timer := { fresh.timer with aligned := true } }
    (s.line.handed.map List.length) = some 13 ∧ (after .announcementTransmitBegin s).line.tx.isSome = true := by decide +kernel

theorem test_lead_begins_a_frame :
    ((after (.characterComplete .b (readingsOf 0xC3)) fresh).line.b.assembly.map (·.kind)) = some .confirmation := by
  decide +kernel

theorem test_prime_sense_begins_the_ramp :
    let s := after (.primeSenseAsserted 0) (pumpAs (fun p => { p with state := .priming, primeTimer := some 5 }) id)
    (s.pump 0).state = .rampUp ∧ (s.player 0).speed = 20 ∧ (s.player 0).timeLeft = some 1000000 ∧ s.driveOn 0 = true := by
  decide +kernel

theorem test_prime_timeout_faults :
    let s := after (.primeTimerExpiry 0) (pumpAs (fun p => { p with state := .priming, primeTimer := some 0 }) id)
    (s.pump 0).cause = some .primeTimeout ∧ s.port.flags = 0b000010 := by decide +kernel

theorem test_write_step_then_read_back :
    let s := after (.writeStep 63 100 255 1) (open₁ fresh)
    s.port.answer = some [0xA0] ∧ s.profile[63] = ⟨100, 255, true⟩ := by decide +kernel

theorem test_hold_pump_and_range :
    ((after (.holdPump 0) (open₁ fresh)).pump 0).state = .held ∧
      (after (.holdPump 4) (open₁ fresh)).port.answer = some [0xA2] := by decide +kernel

theorem test_attention_mask :
    (after (.setAttentionMask 0x3E) (open₁ fresh)).port.mask = 0b111110 ∧
      (after (.setAttentionMask 0x40) (open₁ fresh)).port.answer = some [0xA2] := by decide +kernel

theorem test_unknown_answers :
    (after (.unknown 0xFF) (open₁ fresh)).port.answer = some [0xA3] ∧ after (.unknown 0x10) (open₁ fresh) = open₁ fresh := by
  decide +kernel

/-- A run of 1 s that is left at its whole second counts it (R99), whichever of the two events comes first. -/
theorem test_a_second_complete_at_the_end_of_a_run_counts :
    let s := rampingUp.setPump 0 { rampingUp.pump 0 with secondTimer := some 0, accumulator := 59 }
    let left := (shedStop 0 s).pump 0
    let counted := (shedStop 0 (after (.runSecond 0) s)).pump 0
    left.runMinutes = 1 ∧ left.accumulator = 0 ∧ left = counted ∧ (shedStop 0 rampingUp).pump 0 =
      { rampingUp.pump 0 with state := .rampDown, minRunTimer := none, feedbackTimer := none, secondTimer := none } := by
  decide +kernel

/-- SET RUN MINUTES at the instant of a minute, the command first: the minute adds 1 to the new figure (R100). -/
theorem test_set_run_minutes_before_a_minute :
    let s := rampingUp.setPump 0 { rampingUp.pump 0 with secondTimer := some 0, accumulator := 59, runMinutes := 7 }
    let first := (after (.runSecond 0) (after (.setRunMinutes 0 100) (open₁ s))).pump 0
    let last := (after (.setRunMinutes 0 100) (open₁ (after (.runSecond 0) s))).pump 0
    first.runMinutes = 101 ∧ first.accumulator = 0 ∧ last.runMinutes = 100 ∧ last.accumulator = 0 := by decide +kernel

/-- A change of the active cable moves the comparison from the next character, also where a read-back comes late (R150). -/
theorem test_read_back_keeps_the_cable_of_the_start_edge :
    let change := fun (s : State) => ({ s with line := { s.line with active := .b } } : State)
    let t : Transmission := { kind := .confirmation, chars := confirmationChars 5 1 3, returned := 0, cables := [.a], standby := []
                              elapsed := 351 }
    (t.pass .b).cables = [.a, .b] ∧ (t.pass .b).elapsed = 352 ∧
      (after (.characterReadBack (.char (readingsOf 0xC3)) .noEdge .idle) (change (confirming 0))).line.tx.map (·.returned) =
        some 1 ∧
      (after (.characterReadBack .noEdge (.char (readingsOf 0xC3)) .idle) (change (confirming 0))).line.tx = none := by
  decide +kernel

/-- A change of the active cable within a bit cell moves the sampling from the next cell (R150). -/
theorem test_bit_reading_keeps_the_cable_of_its_cell :
    let s := contending 0
    let changed : State := { s with line := { s.line with active := .b } }
    (after (.arbitrationBitReading ⟨true, false⟩) changed).arb.lastResult = .loss ∧
      (after (.arbitrationBitReading ⟨false, true⟩) changed).arb.part = .contending ∧
      (after (.arbitrationBitReading ⟨false, true⟩) changed).arb.window.map (·.notFree) = some true := by decide +kernel

/-- The sampling mode follows a pump's start before a held realignment is applied (R135, R136). -/
theorem test_sampling_follows_a_start_before_a_held_realignment :
    let gauge := { clean.gauge with sampling := .periodic, waitCount := 9
                                    polder := { clean.gauge.polder with heldClass := some 0, scan := none } }
    (takeStart { clean with gauge := gauge }).gauge.sampling = .continuous ∧
      (takeStart { clean with gauge := gauge }).gauge.waitCount = 0 ∧
      (takeStart { clean with gauge := gauge }).gauge.polder.scan.isSome = true := by decide +kernel

theorem test_reset_ends :
    after .resetEnd (after .coldReset member) = { State.reset with strapPins := levels } := by decide +kernel

/-! ### The hypotheses of the statements

For each statement that has hypotheses, states and operands that meet them, one for each of its clauses and at the ends of
their ranges. -/

/-- `fresh` with its round timer changed. -/
def timed (f : RoundTimer → RoundTimer) : State := { fresh with timer := f fresh.timer }

/-- `fresh` with its line interface changed. -/
def lined (f : Line → Line) : State := { fresh with line := f fresh.line }

/-- `fresh` with a RUNNING cable check. -/
def checked (f : CableCheck → CableCheck) : State :=
  lined (fun l => { l with check := f { l.check with running := true } })

/-- A STRAP FAULT. -/
def faulted : State := after (.strapReadingComplete ⟨2, 0, 0, 0, 0, 0, 0, 0⟩) State.reset

/-- In PERIODIC with no scan under way and the held polder class `c`. -/
def periodic (c : Fin 8) : State :=
  let polder : GaugeGroup := { fresh.gauge.polder with heldClass := some c, scan := none }
  { fresh with gauge := { fresh.gauge with sampling := .periodic, polder := polder, outfall := .reset } }

theorem test_hypotheses_of_StepRunsTheFrontCommand :
    ({ State.reset with pending := [.readCables] } : State).pending = .readCables :: ([] : List Instr) := rfl

theorem test_hypotheses_of_EmptyQueueRaisesDueEventsOrPassesTime :
    State.reset.pending = [] ∧ due State.reset = [] ∧ due { State.reset with strapTime := 0 } ≠ [] ∧
      (contending 0).cond = .running ∧ (contending 0).arb.window.isSome = true ∧ (confirming 0).cond = .running ∧
      (confirming 0).line.tx.isSome = true ∧ State.reset.cond = .strapReading ∧
      faulted.cond = .strapFault ∧ (after .coldReset fresh).cond = .reset .cold := by decide +kernel

/-- The events of the schedule, at the ends of the times in which each is due. -/
theorem test_schedule_events_are_due_at_their_instants :
    let during := fun (phase : Nat) (f : RoundTimer → RoundTimer) => timed (fun t => f { t with mode := .member, phase := phase })
    let isDue := fun (c : Instr) (s : State) => decide (c ∈ due s)
    isDue (.roundEnd .idle) (during 500000 id) = true ∧ isDue (.roundEnd .idle) (during 499999 id) = false ∧
      isDue .settlePoint (during 448000 id) = true ∧ isDue .windowOpening (during 448000 id) = false ∧
      isDue .windowOpening (during 448000 (fun t => { t with settleTaken := true })) = true ∧
      isDue (.ownSlotStart .idle) (during 140000 id) = true ∧ isDue (.ownSlotStart .idle) (during 141000 id) = true ∧
      isDue (.ownSlotStart .idle) (during 141001 id) = false ∧
      isDue (.ownSlotStart .idle) (during 140000 (fun t => { t with mode := .joining })) = false ∧
      isDue .announcementTransmitBegin (after (.ownSlotStart .idle) (during 141000 id)) = true := by decide +kernel

/-- The events of the window, of an own frame, of reception and of the check, and those of the pumps' timers. -/
theorem test_events_are_due_at_their_times :
    let isDue := fun (c : Instr) (s : State) => decide (c ∈ due s)
    let within := fun (elapsed : Nat) (s : State) =>
      { s with arb := { s.arb with window := s.arb.window.map (fun w => { w with elapsed := elapsed }) } }
    let sent := fun (elapsed returned : Nat) =>
      let s := confirming returned
      { s with line := { s.line with tx := s.line.tx.map (fun t => { t with elapsed := elapsed }) } }
    isDue .lastBitEnd (within 7000 (contending 7)) = true ∧ isDue .lastBitEnd (within 6999 (contending 7)) = false ∧
      isDue (.confirmationBegin .idle) (within 10000 won) = true ∧ isDue (.confirmationBegin .idle) (within 9999 won) = false ∧
      isDue .windowEnd (within 32000 won) = true ∧ isDue (.startTakenOrDropped .idle) clean = true ∧
      isDue .transmissionEnd (sent 1408 4) = true ∧ isDue .transmissionEnd (sent 1408 3) = false ∧
      isDue (.frameArrival .a .idle) (collected .confirmation (confirmationChars 3 1 3) 0 fresh) = true ∧
      isDue (.frameArrival .b .idle) fresh = false ∧
      isDue .checkComparisonTimeout (checked (fun k => { k with opened := [⟨[], 1000⟩] })) = true ∧
      isDue .checkComparisonTimeout (checked (fun k => { k with opened := [⟨[], 999⟩] })) = false ∧
      isDue .checkPulseEnd (checked (fun k => { k with pulse := some 0 })) = true ∧
      isDue (.minimumRunExpiry 0) (pumpAs (fun p => { p with minRunTimer := some 0 }) id) = true ∧
      isDue (.stepCompletion 0) (pumpAs id (fun q => { q with playing := true, step := some 3, timeLeft := some 0 })) = true ∧
      due { State.reset with strapTime := 0 } = [.strapReadingComplete State.reset.strapPins] := by decide +kernel

/-- The lead of an announcement on LOCKED cable A, `since` after its completion. -/
def lead (since : Nat) : State :=
  let f : Assembly :=
    { kind := .announcement, chars := [0x5A], void := false, edgeAge := since, edgePhase := 0, edgeCount := 0, sinceChar := since }
  lined (fun l => { l with a := { l.a with locked := true, assembly := some f } })

/-- A frame is truncated once no character begun in time can come, and a lead that comes later begins a frame of its own. -/
theorem test_a_late_character_finds_the_frame_truncated :
    let next := fun (since : Nat) =>
      let x := (after (.characterComplete .a (readingsOf 0xC3)) (lead since)).line.a
      (x.assembly.map (fun f => (f.kind, f.chars)), x.checkCount)
    decide (.frameTruncated .a ∈ due (lead 704)) = false ∧ decide (.frameTruncated .a ∈ due (lead 705)) = true ∧
      next 704 = (some (.announcement, [0x5A, 0xC3]), 0) ∧ next 705 = (some (.confirmation, [0xC3]), 1) ∧
      (after (.frameTruncated .a) (lead 705)).line.a.checkCount = 1 := by decide +kernel

theorem test_hypotheses_of_ResetsLoadDefaultsOrKeepProfiles :
    (after .coldReset fresh).cond = .reset .cold ∧ fresh.cond ≠ .reset .cold ∧
      (after (.warmReset 100) fresh).cond = .reset .warm := by decide +kernel

theorem test_hypotheses_of_StrapReadingEndsInStrapFaultOrBeginsEveryBlock :
    (after .coldReset fresh).cond = .reset .cold ∧ State.reset.cond = .strapReading ∧
      StrapLevels.inFault ⟨2, 0, 0, 0, 0, 0, 0, 0⟩ = true ∧ StrapLevels.inFault ⟨0, 0, 0, 0, 0, 5, 0, 0⟩ = true ∧
      StrapLevels.inFault ⟨1, 7, 7, 7, 7, 4, 7, 7⟩ = false ∧ StrapLevels.inFault ⟨0, 0, 0, 0, 0, 0, 0, 0⟩ = false ∧
      State.reset.gauge.polder.scan = none ∧ State.reset.gauge.outfall.scan = none := by decide +kernel

theorem test_hypotheses_of_SamplingModeAndWithdrawalFollowEveryEvent :
    (follow (periodic 2)).gauge.sampling = .continuous ∧ (follow (periodic 1)).gauge.sampling = .periodic ∧
      (periodic 2).gauge.polder.scan = none ∧ (periodic 2).gauge.outfall.scan = none ∧
      fresh.gauge.polder.scan.isSome = true ∧ fresh.gauge.outfall.scan.isSome = true ∧
      (contending 0).arb.part = .contending ∧ (contending 0).pendingValid = true ∧
      (({ contending 0 with alloc := .reset } : State).arb.part = .contending) ∧
      ({ contending 0 with timer := .reset } : State).pendingValid = false := by decide +kernel

/-- The part right after its strap reading, a station that contends, and a part in PERIODIC: mode and watch have followed. -/
theorem test_hypotheses_of_every_step_keeps_what_follows :
    fresh.followed ∧ (contending 0).followed ∧ (periodic 1).followed := by
  refine ⟨State.followed_of_unknown ?_ ?_ ?_, ⟨(State.samplingFits_iff _).2 ?_, (State.contenderIsValid_iff _).2 ?_, ?_⟩,
    ⟨(State.samplingFits_iff _).2 ?_, (State.contenderIsValid_iff _).2 ?_, ?_⟩⟩
  all_goals
    try unfold State.samplingSettled
    decide +kernel

/-- The prime timeout of the one active pump, with the polder class below 2, brings the sampling mode to PERIODIC at once (R135). -/
theorem test_an_expiry_moves_the_sampling_mode :
    let s := periodic 1
    let priming : Pump := { s.pump 0 with state := .priming, primeTimer := some 0 }
    let before := { s.setPump 0 priming with gauge := { s.gauge with sampling := .continuous } }
    (after (.primeTimerExpiry 0) before).gauge.sampling = .periodic ∧
      (after (.holdPump 0) (open₁ before)).gauge.sampling = .periodic := by decide +kernel

theorem test_hypotheses_of_RoundEndAgesTheTableAndFormsTheFlagSets :
    exampleStation.cond = .running ∧ (exampleStation.table.entries[3]).status = .empty ∧
      (exampleStation.table.entries[9]).status = .lost ∧
      (after (.roundEnd ⟨8, 0, 0⟩) (after (.roundEnd ⟨8, 0, 0⟩) exampleStation)).table.queue = [⟨8, 8201⟩] := by
  decide +kernel

/-- The wait count at a round end, and the two changes of the sampling mode by it. -/
theorem test_hypotheses_of_the_wait_count :
    let gauge := fun (c : Fin 8) (m : Sampling) (count : Nat) =>
      let g := (after (.roundEnd .idle)
        { periodic c with gauge := { (periodic c).gauge with sampling := m, waitCount := count } }).gauge
      (g.sampling, g.waitCount, g.polder.scan.isSome && g.outfall.scan.isSome)
    gauge 1 .periodic 14 = (.periodic, 15, false) ∧ gauge 1 .periodic 15 = (.periodic, 0, true) ∧
      gauge 2 .periodic 3 = (.continuous, 0, true) ∧ gauge 2 .continuous 0 = (.continuous, 0, false) ∧
      (periodic 1).cond = .running := by decide +kernel

/-- A round end that brings the change to PERIODIC, by a pump that faults at it: its wait count is left open (log 9). -/
theorem test_a_round_end_may_change_to_periodic :
    let s := periodic 1
    let lost : Pump := { s.pump 0 with state := .running, supervised := true, missCount := 1 }
    (after (.roundEnd .idle) { s.setPump 0 lost with gauge := { s.gauge with sampling := .continuous } }).gauge.sampling =
      .periodic := by
  decide +kernel

theorem test_hypotheses_of_RoundEndStopsPumpsAtF1AndSupervisesFeedback :
    let run := fun (miss : Nat) (supervised : Bool) =>
      pumpAs (fun p => { p with state := .running, missCount := miss, supervised := supervised }) id
    let entering := { run 0 false with table := { fresh.table with candidate := 2 } }
    entering.table.accepted = 0 ∧ (entering.pump 0).state.active = true ∧
      (after (.roundEnd ⟨2, 0, 0⟩) entering).table.accepted = 2 ∧
      ((after (.roundEnd ⟨2, 0, 0⟩) entering).pump 0).state = .resting ∧
      ((after (.roundEnd ⟨0, 1, 0⟩) (run 1 true)).pump 0).missCount = 0 ∧
      ((after (.roundEnd ⟨0, 0, 0⟩) (run 0 true)).pump 0).missCount = 1 ∧
      ((after (.roundEnd ⟨0, 0, 0⟩) (run 1 true)).pump 0).cause = some .runLost := by decide +kernel

theorem test_hypotheses_of_RoundEndCountsRoundsAndChangesTheMode :
    let ended := fun (m : Mode) (marked : Bool) (joining unheard : Nat) =>
      (after (.roundEnd .idle) (timed (fun t =>
        { t with mode := m, roundMarked := marked, joiningCount := joining, unheardCount := unheard }))).timer.mode
    ended .joining true 1 0 = .member ∧ ended .joining true 0 7 = .joining ∧ ended .member true 0 7 = .member ∧
      ended .joining false 1 7 = .isolated ∧ ended .member false 0 7 = .isolated ∧ ended .joining false 1 6 = .joining ∧
      ended .member false 0 6 = .member ∧ ended .isolated true 0 8 = .isolated ∧ ended .silent true 1 7 = .silent := by
  decide +kernel

theorem test_hypotheses_of_RoundEndStepsTheLockMachinesAndTheCheck :
    let locks := fun (mark locked : Bool) (rounds silent : Nat) =>
      let x := (after (.roundEnd .idle) (lined (fun l =>
        { l with b := { l.b with frameMark := mark, locked := locked, frameRounds := rounds, silentRounds := silent } }))).line
      (x.b.locked, x.active)
    let judged := fun (left : Nat) (armed errored lockedB : Bool) =>
      (after (.roundEnd .idle) { checked (fun k => { k with armed := armed, roundsLeft := left, roundErrored := errored })
        with line := { (checked (fun k => { k with armed := armed, roundsLeft := left, roundErrored := errored })).line
          with b := { CableState.reset with locked := lockedB } } }).line.check.result
    locks true false 0 3 = (false, .a) ∧ locks true false 1 3 = (true, .b) ∧ locks true true 2 2 = (true, .b) ∧
      locks false true 2 1 = (true, .b) ∧ locks false true 0 2 = (false, .a) ∧ locks false false 0 3 = (false, .a) ∧
      judged 1 true false false = .pass ∧ judged 1 true true false = .fail ∧ judged 2 true false false = .none ∧
      judged 2 true false true = .aborted ∧ judged 1 false false false = .none ∧ judged 1 false false true = .aborted := by
  decide +kernel

/-- The check record after a round end: a judged round passes its open comparisons on, a STOPPED check stands, and an abort before
the check is armed sets CHECK DONE. -/
theorem test_check_records_at_a_round_end :
    let opened : List OpenComparison := [⟨[], 0⟩]
    let judged := checked (fun k => { k with armed := true, roundsLeft := 2, roundErrored := true, opened := opened })
    let stopped := lined (fun l => { l with check := { l.check with result := .pass, errored := 3 } })
    let unarmed := lined (fun l => { l with b := { l.b with locked := true }, check := { l.check with running := true } })
    (after (.roundEnd .idle) judged).line.check =
        { judged.line.check with errored := 1, roundsLeft := 1, roundErrored := false, pulse := some 10000 } ∧
      (after (.roundEnd .idle) stopped).line.check = stopped.line.check ∧
      (after (.roundEnd .idle) unarmed).line.check.result = .aborted ∧
      (after (.roundEnd .idle) unarmed).port.flags.getLsbD 4 = true := by decide +kernel

/-- Station 5 with an own offer of 62 du, which is the only one. -/
def offering : State :=
  let outfall : GaugeGroup := { fresh.gauge.outfall with heldClass := some 0 }
  { fresh with gauge := { fresh.gauge with outfall := outfall } }

theorem test_hypotheses_of_SettlePointFormsDemandQuotaAndTarget :
    (offering.cond = .running ∧ offering.timer.settleTaken = false ∧ offering.offerConsidered 62 ∧
      ∀ r, offering.offerConsidered r → 62 ≤ r) ∧ (∀ q, ¬ fresh.offerConsidered q) ∧
      (after .settlePoint fresh).timer.settleTaken = true ∧ (after .settlePoint fresh).alloc.heldAge = 241 := by
  have own : offering.ownOffer = some 62 := by decide +kernel
  have none : ∀ k : Station, (fresh.table.entries[k]).fields = .none := by decide +kernel
  refine ⟨⟨by decide +kernel, by decide +kernel, Or.inl own, ?_⟩, ?_, by decide +kernel, by decide +kernel⟩
  · rintro r (h | ⟨k, f, ⟨-, -, h⟩, -⟩)
    · rw [own] at h; exact (Option.some.inj h).le
    · have := none k; rw [show offering.table = fresh.table from rfl] at h; rw [this] at h; cases h
  · rintro q (h | ⟨k, f, ⟨-, -, h⟩, -⟩)
    · rw [show fresh.ownOffer = Option.none from by decide +kernel] at h; cases h
    · rw [none k] at h; cases h

/-- The allocation example of chapter 3 with a LOST entry of age `age` that reserves, and class `c` held. -/
def reserving (age : Nat) (c : Option (Fin 8)) : State :=
  let entry : Entry := { heard age none 0 12 none with age := age }
  let polder : GaugeGroup := { exampleStation.gauge.polder with heldClass := c }
  { exampleStation with table := { exampleStation.table with entries := exampleStation.table.entries.set 9 entry }
                        gauge := { exampleStation.gauge with polder := polder } }

theorem test_hypotheses_of_GrantsAndReservationsStayWithinTheQuota :
    ([12] : List Nat).sum ≤ 12 ∧ (reserving 8 (some 5)).cond = .running ∧
      ((reserving 247 (some 5)).entry 9).reservation = 12 ∧ ((reserving 248 (some 5)).entry 9).reservation = 3 ∧
      ((reserving 8 (some 5)).participants 12).map (·.station) = [1, 5, 2, 7, 0] ∧
      ((reserving 8 (some 5)).grants 40 12).map Prod.snd = [10, 6, 8, 0, 4] ∧ (reserving 8 (some 5)).ownGrant 40 12 = 8 ∧
      (reserving 8 none).ownGrant 40 12 = 0 ∧ ∀ p ∈ (reserving 8 none).participants 12, p.station ≠ (reserving 8 none).own := by
  decide +kernel

theorem test_hypotheses_of_ParticipantsStandInClassOrder :
    exampleStation.cond = .running ∧ (exampleStation.participants 12).map (·.station) = [1, 5, 2, 7, 0] := by decide +kernel

theorem test_hypotheses_of_SettlePointShedsUntilWithinTheLimit :
    let s := { exampleStation with timer := { exampleStation.timer with mode := .isolated } }
    let t := after .settlePoint s
    let wide := fun (playing : Bool) =>
      let s := { exampleStation with
        timer := { exampleStation.timer with mode := .isolated }
        gauge := { exampleStation.gauge with polder := { exampleStation.gauge.polder with heldClass := some 0 } }
        straps := { exampleStation.straps with island := 7, rating := 3 }
        pumps := exampleStation.pumps.set 1 { exampleStation.pump 1 with state := .idle } }
      after .settlePoint ((s.setPump 0 { s.pump 0 with pastMinRun := true }).setPlayer 0
        { s.player 0 with playing := playing })
    s.timer.settleTaken = false ∧ s.committed = 8 ∧ t.alloc.entitlement = 3 ∧ t.committed = 0 ∧
      (t.pump 0).state = .rampDown ∧ (after .settlePoint exampleStation).committed = 8 ∧
      ((wide true).pump 0).finishing = true ∧ ((wide false).pump 0).state = .rampDown := by decide +kernel

theorem test_hypotheses_of_StartWantedNamesTheLeastWorkedIdlePump :
    let table := { exampleStation.table with entries := exampleStation.table.entries.set 9 Entry.blank }
    let pumps := exampleStation.pumps.set 1 { exampleStation.pump 1 with state := .idle }
    let s := { exampleStation with table := table, pumps := pumps }
    s.timer.settleTaken = false ∧ (after .settlePoint s).alloc.startWanted = some 1 ∧
      (after .settlePoint exampleStation).alloc.startWanted = none := by decide +kernel

theorem test_hypotheses_of_WindowOpeningContendsByThreshold :
    member.cond = .running ∧ member.timer.windowTaken = false ∧ member.alloc.startWanted = some 1 ∧ member.startIsValid 1 ∧
      member.arb.freeWindows = 4 ∧ (after .windowOpening { member with arb := .reset }).arb.part = .out ∧
      (contending 0).cond = .running ∧ (contending 0).timer.windowTaken = true := by
  rw [State.startIsValid_iff]; decide +kernel

theorem test_hypotheses_of_ArbitrationReadingDecidesTheContention :
    let meets := fun (n : Nat) (sent : Bool) => (contending n).arb.window.any (fun w =>
      decide (w.bitsRead < 7) && decide (sent = decide (w.word.toNat / 2 ^ (6 - w.bitsRead) % 2 = 1)))
    (contending 0).line.windowHold = true ∧ (contending 0).line.active = .a ∧ (contending 0).arb.part = .contending ∧ meets 0 true = true ∧
      meets 3 false = true ∧ meets 6 true = true ∧ (contending 6).pendingValid = true ∧
      (after (.arbitrationBitReading ⟨true, false⟩) (contending 0)).arb.part = .withdrawn ∧
      (after (.arbitrationBitReading ⟨false, true⟩) (contending 3)).arb.part = .withdrawn ∧
      (after (.arbitrationBitReading ⟨true, false⟩) (contending 3)).arb.part = .contending ∧
      (after (.arbitrationBitReading ⟨false, true⟩) (contending 6)).arb.part = .contending := by decide +kernel

theorem test_hypotheses_of_WindowIsWonAtTheLastBitAndJudgedAtItsEnd :
    (contending 7).cond = .running ∧ (contending 7).arb.window.isSome = true ∧ (contending 7).line.windowHold = true ∧
      (contending 7).arb.part = .contending ∧
      (after .lastBitEnd (after (.arbitrationBitReading ⟨true, false⟩) (contending 6))).arb.part = .withdrawn ∧
      won.arb.window.isSome = true := by decide +kernel

theorem test_hypotheses_of_ConfirmationBeginSendsTheWinnersFrame :
    won.cond = .running ∧ won.arb.part = .won ∧ won.arb.pendingStart = some 1 ∧ won.timer.mode ≠ .silent ∧
      won.line.tx = none ∧ won.arb.confirmClean = false ∧ (contending 7).arb.part ≠ .won ∧ (contending 7).line.tx = none ∧
      (contending 7).arb.confirmClean = false ∧ (confirming 0).line.tx.isSome = true ∧ clean.arb.confirmClean = true := by
  decide +kernel

/-- A realignment to station 3 is held, `age` after its first start edge. -/
def holding (age : Nat) (s : State) : State := { s with timer := { s.timer with held := some ⟨3, 9, age⟩ } }

theorem test_hypotheses_of_CleanConfirmationTakesAValidStart :
    clean.cond = .running ∧ clean.line.tx = none ∧ clean.arb.confirmClean = true ∧ clean.arb.pendingStart = some 1 ∧
      clean.arb.part = .won ∧ clean.timer.held = none ∧ clean.arb.window.isSome = true ∧ clean.startIsValid 1 ∧
      ¬ ({ clean with timer := { clean.timer with mode := .isolated } } : State).startIsValid 1 ∧
      ((after (.startTakenOrDropped ⟨0, 0, 2⟩) clean).pump 1).state = .rampUp ∧ (holding 4576 clean).startIsValid 1 ∧
      (after (.startTakenOrDropped .idle) (holding 4576 clean)).timer.phase = 28000 * 3 + 1000 + 4576 := by
  rw [State.startIsValid_iff, State.startIsValid_iff, State.startIsValid_iff]; decide +kernel

/-- START_TAKEN_OR_DROPPED with no clean confirmation, with no pending start, and where it ends a whole confirmation itself. -/
theorem test_hypotheses_of_the_other_start_decisions :
    let silenced := { clean with arb := { clean.arb with pendingStart := none } }
    won.line.tx = none ∧ won.arb.confirmClean = false ∧ after (.startTakenOrDropped .idle) won = won ∧
      silenced.line.tx = none ∧ silenced.arb.confirmClean = true ∧
      (after (.startTakenOrDropped .idle) silenced).table.ownStartSeen = some 0 ∧
      (after (.startTakenOrDropped .idle) silenced).pumps = clean.pumps ∧
      (confirming 4).line.tx.any (fun x => decide (x.kind = .confirmation ∧ x.returned = x.chars.length)) = true ∧
      after (.startTakenOrDropped .idle) (confirming 4) = after (.startTakenOrDropped .idle) clean := by decide +kernel

/-- The own announcement under way. -/
def announcing : State :=
  after .announcementTransmitBegin (after (.ownSlotStart .idle) (timed (fun t => { t with mode := .member })))

theorem test_hypotheses_of_OwnSlotComposesAndBeginsTheAnnouncement :
    let composed := fun (m : Mode) (aligned taken : Bool) =>
      (after (.ownSlotStart .idle)
        (timed (fun t => { t with mode := m, aligned := aligned, announceTaken := taken }))).line.handed.isSome
    composed .joining true false = true ∧ composed .member false false = true ∧ composed .isolated false false = true ∧
      composed .joining false false = false ∧ composed .silent true false = false ∧ composed .member false true = false ∧
      announcing.line.tx.isSome = true ∧ fresh.ownSummary = 0x55 ∧ fresh.ownOffer = none ∧ fresh.straps.role = 1 ∧
      offering.gauge.outfall.heldClass = some 0 ∧ offering.ownOffer = some 62 := by decide +kernel

theorem test_hypotheses_of_ReadBackStopsTheFrameAtAMismatch :
    let failed := fun (r : Returned) (n : Nat) (already : Bool) =>
      after (.characterReadBack r .noEdge .idle)
        { announcing with timer := { announcing.timer with readBackCount := n, failedInRound := already } }
    announcing.line.active = .a ∧ (announcing.line.tx.map (fun t => (t.kind, t.cables, t.chars[t.returned]?))) =
        some (.announcement, [.a], some 0x5A) ∧
      judgeReadings (readingsOf 0x5B) ≠ .char 0x5A false false ∧
      (failed (.char (readingsOf 0x5A)) 0 false).line.tx.isSome = true ∧
      (failed .noEdge 1 false).timer.readBackCount = 2 ∧ (failed (.char (readingsOf 0x5B)) 2 false).timer.mode = .silent ∧
      (failed .noEdge 1 true).timer.readBackCount = 1 ∧ (confirming 2).line.tx.map (fun t => (t.kind, t.chars[t.returned]?)) =
        some (.confirmation, some 0x03) ∧
      (after (.characterReadBack .noEdge .noEdge .idle) (holding 4576 (confirming 2))).timer.phase = 28000 * 3 + 1000 + 4576 ∧
      (after (.characterReadBack .noEdge .noEdge .idle) (confirming 2)).arb.pendingStart = none := by decide +kernel

theorem test_hypotheses_of_ForeignEdgeOnAConfirmationDropsTheStart :
    (confirming 2).cond = .running ∧ (confirming 2).line.tx.map (·.kind) = some .confirmation ∧
      (confirming 2).arb.part = .won ∧ (confirming 2).timer.held = none ∧ (confirming 2).timer.failedInRound = false ∧
      (confirming 2).arb.window.isSome = true ∧
      (after (.foreignEdgeOnFrame .idle) (confirming 2)).arb.pendingStart = none ∧
      announcing.line.tx.map (·.kind) = some .announcement ∧
      (after (.foreignEdgeOnFrame .idle) announcing).timer.readBackCount = 1 := by decide +kernel

/-- A confirmation at its end with a copy on the standby cable and a RUNNING check. -/
def compared (copy : List Byte) : State :=
  let s := confirming 4
  let tx := s.line.tx.map (fun t => { t with standby := copy.map (fun c => Returned.char (readingsOf c)) })
  { s with line := { s.line with tx := tx, check := { s.line.check with running := true, armed := true } } }

theorem test_hypotheses_of_TransmissionEndReportsACleanFrame :
    (confirming 4).line.tx.any (fun t => decide (t.returned = t.chars.length)) = true ∧
      (confirming 4).line.tx.map (·.chars) = some (confirmationChars 5 1 3) ∧
      frameCheckOk .confirmation (confirmationChars 5 1 3) = true ∧ (confirming 4).line.check.running = false ∧
      (compared []).line.check.arrivals = [] ∧ (compared []).line.check.opened = [] ∧
      (after .transmissionEnd (compared (confirmationChars 5 1 3))).line.check.roundErrored = false ∧
      (after .transmissionEnd (compared (confirmationChars 5 1 4))).line.check.roundErrored = true ∧
      (after .transmissionEnd (confirming 4)).arb.record = some ⟨5, 1, 3, 0⟩ := by decide +kernel

theorem test_hypotheses_of_CharactersBuildFramesUnlessHeld :
    let got := fun (cs : List Byte) (r : Readings) =>
      (after (.characterComplete .b r) (lined (fun l => { l with b := { l.b with
        locked := true
        assembly := if cs = [] then none else some
          { kind := .announcement, chars := cs, void := false, edgeAge := 0, edgePhase := 0, edgeCount := 0, sinceChar := 0 }
        } }))).line.b
    fresh.line.tx = none ∧ fresh.line.windowHold = false ∧ fresh.line.b.decoder = .seeking ∧
      (got [] 0x7FF).assembly = none ∧ (got [] (readingsOf 0x5A)).assembly.isSome = true ∧
      (got [] (readingsOf 0x5B)).assembly = none ∧ (got [] (readingsOf 0x5A &&& 0x3FF)).decoder = .waitRelease ∧
      (got [0x5A] (readingsOf 0x11 ^^^ 0x200)).parityCount = 1 ∧
      (got ((announced 3 1 0).take 12) (readingsOf 0x77)).assembly.any (fun f => decide (f.chars.length = 13)) = true ∧
      (contending 0).line.windowHold = true ∧ announcing.line.tx.isSome = true ∧
      (contending 0).line.a.decoder = .waitRelease := by decide +kernel

/-- `s` with the frame under way on cable A changed. -/
def assembled (f : Assembly → Assembly) (s : State) : State :=
  { s with line := { s.line with a := { s.line.a with assembly := s.line.a.assembly.map f } } }

/-- A frame of station 3 on cable A. -/
def sister (m n : Nat) (s : State) : State := collected .announcement (announced 3 m n) 85000 s

/-- The own phase and count at a first start edge, on the schedule that the first realignment since has replaced. -/
theorem test_the_first_edge_lies_on_the_schedule_replaced :
    let edge := fun (phase : Nat) (replaced : List Replaced) =>
      let s := timed (fun t => { t with phase := phase, count := 9, replaced := replaced })
      (after (.characterComplete .a (readingsOf 0x5A)) s).line.a.assembly.map (fun f => (f.edgePhase, f.edgeCount))
    edge 336 [] = some (0, 9) ∧ edge 335 [] = some (499999, 8) ∧ edge 5000 [⟨100000, 7, 336⟩, ⟨3, 8, 0⟩] = some (100000, 7) ∧
      edge 5000 [⟨100000, 7, 335⟩] = some (99999, 7) ∧ edge 5000 [⟨0, 7, 335⟩] = some (499999, 6) ∧
      edge 5000 [⟨100000, 7, 337⟩] = some (4664, 9) ∧
      (realign 3 9 4576 (timed id)).timer.replaced = [⟨0, 0, 0⟩] ∧
      (advance (timed (fun t => { t with replaced := [⟨1, 2, 336⟩, ⟨3, 4, 335⟩] }))).timer.replaced = [⟨3, 4, 336⟩] := by
  decide +kernel

theorem test_hypotheses_of_OnlyValidFramesOfTheActiveCableAreOffered :
    (sister 1 0 fresh).line.check.running = false ∧
      (sister 1 0 fresh).line.a.assembly.any (fun f => decide (f.kind.length ≤ f.chars.length) && !f.void &&
        frameCheckOk f.kind f.chars) = true ∧
      (assembled (fun f => { f with void := true }) (sister 1 0 fresh)).line.a.assembly.any (·.void) = true ∧
      (assembled (fun f => { f with chars := f.chars.set 5 0 }) (sister 1 0 fresh)).line.a.assembly.any (fun f =>
        !f.void && !frameCheckOk f.kind f.chars) = true ∧
      (sister 1 0 (lined (fun l => { l with active := .b }))).line.active ≠ .a := by decide +kernel

theorem test_hypotheses_of_CheckComparesTheFramesOfBothCables :
    let cs := confirmationChars 3 1 3
    let arrived := fun (active : Cable) (armed : Bool) (opened : List OpenComparison) (arrivals : List StandbyArrival) =>
      after (.frameArrival .a .idle) (collected .confirmation cs 0
        { checked (fun k => { k with armed := armed, opened := opened, arrivals := arrivals }) with
          line := { (checked (fun k => { k with armed := armed, opened := opened, arrivals := arrivals })).line with
            active := active } })
    (arrived .b true [⟨cs, 900⟩] []).line.check.roundErrored = false ∧
      (arrived .b true [⟨[], 0⟩] []).line.check.roundErrored = true ∧ (arrived .a false [] []).line.check.opened = [] ∧
      (arrived .a true [] [⟨some cs, 1001⟩]).line.check.opened = [⟨cs, 0⟩] ∧
      (arrived .a true [] [⟨none, 1000⟩]).line.check.roundErrored = true ∧
      (arrived .a true [] [⟨some cs, 0⟩]).line.check.roundErrored = false ∧ cs.getD 1 0 = 0x13 := by decide +kernel

/-- A valid announcement of the active cable while the check runs, with no round end to carry in; and one that carries one in. -/
theorem test_hypotheses_of_a_compared_announcement :
    let arrived := fun (phase : Nat) (arrivals : List StandbyArrival) =>
      let s := checked (fun k => { k with armed := true, roundsLeft := 2, arrivals := arrivals })
      (after (.frameArrival .a .idle) (sister 1 0 { s with timer := { s.timer with phase := phase } })).line.check
    let move := fun (phase : Nat) => (89576 + 500000 - phase) % 500000
    250000 < move 339576 + 1 ∧ move 339576 = 250000 ∧ move 339575 = 250001 ∧ move 80000 + 80000 < 500000 ∧
      (arrived 339575 []).opened = [⟨announced 3 1 0, 0⟩] ∧ (arrived 80000 []).opened = [⟨announced 3 1 0, 0⟩] ∧
      (arrived 80000 [⟨some (announced 3 1 0), 1000⟩]).roundErrored = false ∧
      (arrived 80000 [⟨some (announced 3 1 1), 1000⟩]).roundErrored = true ∧ (arrived 339576 []).roundsLeft = 1 := by
  decide +kernel

/-- The timing reference is station 1. -/
def referred (f : RoundTimer → RoundTimer) : State :=
  let s := timed f
  { s with table := { s.table with entries := s.table.entries.set 1 (heard 0 none 0 0 none) } }

theorem test_hypotheses_of_AcceptedAnnouncementReplacesTheEntry :
    let aligned := referred (fun t => { t with aligned := true })
    (∃ j : Station, j < 3 ∧ j ≠ aligned.own ∧ aligned.isReferenceCandidate j) ∧ aligned.own = 5 ∧
      aligned.line.active = .a ∧ aligned.timer.mode = .joining ∧ aligned.timer.aligned = true ∧
      (announced 3 1 0).length = 13 ∧ frameCheckOk .announcement (announced 3 1 0) = true ∧
      (announced 3 1 0).getD 1 0 = 0x13 ∧
      ((after (.frameArrival .a .idle) (sister 0 0 aligned)).table.entries[3]).status = .fresh ∧
      ((after (.frameArrival .a .idle) (sister 1 0 aligned)).table.entries[3]).status = .fresh ∧
      ((after (.frameArrival .a .idle) (sister 2 0 (referred (fun t => { t with mode := .silent })))).table.entries[3]).status =
        .fresh := by
  intro aligned
  refine ⟨⟨1, by decide, by decide +kernel, ?_⟩, by decide +kernel⟩
  rw [State.isReferenceCandidate_iff]
  decide +kernel

/-- Accepted at a MEMBER station: in step at the ends of the 6 ms, the reference's own, and a lower-numbered member's. The timing
reference's frame realigns, and a carried round end that makes the station ISOLATED sends it back to JOINING. -/
theorem test_hypotheses_of_accepted_frames_in_step_and_of_the_reference :
    let accepts := fun (r : Station) (m n phase : Nat) =>
      let s := after (.frameArrival .a .idle) (collected .announcement (announced 3 m n) phase
        (referred (fun t => { t with mode := .member, reference := some r })))
      ((s.table.entries[3]).status, s.timer.phase)
    let led := fun (phase unheard : Nat) =>
      let s := timed (fun t => { t with aligned := true, phase := phase, unheardCount := unheard })
      ((after (.frameArrival .a .idle) (sister 1 0 s)).timer.mode, (after (.frameArrival .a .idle) (sister 1 0 s)).timer.phase,
        (realignOrHold 3 0 4576 s).timer.mode)
    accepts 1 1 0 85000 = (.fresh, 0) ∧ accepts 1 1 0 91000 = (.fresh, 0) ∧ accepts 1 1 0 79000 = (.fresh, 0) ∧
      accepts 1 0 0 79000 = (.fresh, 0) ∧ accepts 1 1 0 91001 = (.empty, 0) ∧ accepts 3 1 9 0 = (.fresh, 0) ∧
      accepts 4 2 9 0 = (.fresh, 0) ∧ (∀ j : Station, j < 3 → (timed id).referenceCandidate j = false) ∧
      led 0 0 = (.joining, 89576, .joining) ∧ led 499999 7 = (.joining, 89576, .isolated) := by decide +kernel

theorem test_hypotheses_of_RefusedAnnouncementLeavesTheTable :
    let refused := fun (k m n : Nat) (phase : Nat) (s : State) =>
      decide ((after (.frameArrival .a .idle) (collected .announcement (announced k m n) phase s)).table = s.table)
    let member := timed (fun t => { t with mode := .member, reference := some 1 })
    refused 5 1 0 141000 fresh = true ∧ (after (.frameArrival .a .idle) (collected .announcement (announced 5 1 0) 141000
        fresh)).timer.mode = .silent ∧
      refused 3 3 0 85000 fresh = true ∧ refused 3 1 1 85000 member = true ∧ refused 3 1 0 91001 member = true ∧
      refused 3 1 0 78999 member = true ∧ refused 3 1 0 91000 member = false ∧ member.timer.reference ≠ some 3 := by
  decide +kernel

theorem test_hypotheses_of_FirstAcceptedFrameAlignsAJoiningStation :
    fresh.timer.mode = .joining ∧ fresh.timer.aligned = false ∧ fresh.timer.roundMarked = false ∧ fresh.timer.phase = 0 ∧
      fresh.arb.window = none ∧
      ((after (.frameArrival .a .idle) (sister 1 7 fresh)).table.entries[3]).age = 0 ∧
      ((after (.frameArrival .a .idle) (sister 1 7 (timed (fun t => { t with phase := 499999 })))).table.entries[3]).age =
        1 ∧
      ((after (.frameArrival .a .idle) (sister 0 7 (timed (fun t => { t with mode := .isolated })))).timer.mode) = .joining := by
  decide +kernel

/-- The first frame at a round end that makes the station ISOLATED, in the second round with a frame, and while a won window holds
the realignment. -/
theorem test_hypotheses_of_a_first_frame_in_every_round :
    let arrived := fun (f : RoundTimer → RoundTimer) => (after (.frameArrival .a .idle) (sister 2 7 (timed f))).timer
    let held := { fresh with arb := { fresh.arb with window := some ⟨9000, false, 7, 0, [.a], true⟩ } }
    (realignOrHold 3 7 4576 (timed (fun t => { t with phase := 499999, unheardCount := 7 }))).timer.mode = .isolated ∧
      (arrived (fun t => { t with phase := 499999, unheardCount := 7 })).mode = .joining ∧
      (arrived (fun t => { t with phase := 499999, roundMarked := true, joiningCount := 1 })).mode = .member ∧
      (after (.frameArrival .a .idle) (sister 1 7 held)).timer.held = some ⟨3, 7, 4576⟩ ∧
      (after (.frameArrival .a .idle) (sister 1 7 held)).timer.aligned = true := by decide +kernel

theorem test_hypotheses_of_RealignmentSkipsForwardAndLeavesBackward :
    let held := { fresh with arb := { fresh.arb with window := some ⟨9000, false, 7, 0, [.a], true⟩ } }
    (realign 15 0 4576 (timed (fun t => { t with phase := 420000 }))).timer.phase = 425576 ∧
      (realign 5 0 0 (timed (fun t => { t with phase := 140999 }))).timer.announceTaken = false ∧
      (realign 5 0 1 (timed (fun t => { t with phase := 141000 }))).timer.announceTaken = true ∧
      (realign 0 0 0 (timed (fun t => { t with phase := 250999 }))).timer.realignCount = 1 ∧
      (realignOrHold 3 9 4576 held).timer.held = some ⟨3, 9, 4576⟩ ∧ fresh.timer.phase < 500000 ∧ fresh.timer.held = none ∧
      (timed (fun t => { t with phase := 410000 })).cond = .running ∧
      (realign 5 1 0 (timed (fun t => { t with phase := 410000 }))).timer.realignCount = 1 ∧
      (realign 5 0 0 (timed (fun t => { t with phase := 410000 }))).timer.realignCount = 2 ∧
      (realign 5 1 1 (timed (fun t => { t with phase := 410000 }))).timer.announceTaken = true ∧
      (realign 5 1 0 (timed (fun t => { t with phase := 500000 }))).timer.realignCount = 1 ∧
      (realign 15 0 4576 (timed (fun t => { t with phase := 500000 }))).timer.realignCount = 1 ∧
      (releaseRealignment (holding 4576 fresh)).timer.count = 9 := by decide +kernel

theorem test_hypotheses_of_ConfirmationRaisesTheWinnersCommitted :
    let heardOf := fun (rating : Nat) (s : State) =>
      ((after (.frameArrival .a .idle) (collected .confirmation (confirmationChars 3 2 rating) 0 s)).table.entries[3]).fields.map
        (·.committed)
    let known := { fresh with table := { fresh.table with entries := fresh.table.entries.set 3 (heard 9 none 0 60 none) } }
    heardOf 1 fresh = some 1 ∧ heardOf 8 fresh = some 8 ∧ heardOf 0 fresh = none ∧ heardOf 9 fresh = none ∧
      heardOf 8 known = some 63 ∧ heardOf 1 known = some 61 ∧ (confirmationChars 3 2 8).getD 1 0 = 0x23 ∧
      (after (.frameArrival .a .idle) (collected .confirmation (confirmationChars 5 2 8) 0 fresh)).timer.mode = .silent ∧
      (after (.frameArrival .a .idle) (collected .confirmation (confirmationChars 5 2 8) 0 member)).arb.record =
        some ⟨5, 2, 8, 0⟩ ∧ (confirmationChars 5 2 8).getD 1 0 = 0x25 := by decide +kernel

theorem test_hypotheses_of_TruncationTimeoutAndPulseEndActOnTheLine :
    (collected .announcement [0x5A] 0 fresh).line.a.assembly.any (fun f => decide (f.chars.length < f.kind.length)) = true ∧
      (checked (fun k => { k with opened := [⟨[], 1000⟩] })).line.check.opened = [⟨[], 1000⟩] ∧
      after (.frameTruncated .a) (sister 1 0 fresh) = sister 1 0 fresh ∧ fresh.line.a.assembly = none ∧
      fresh.line.check.opened = [] := by decide +kernel

theorem test_hypotheses_of_PrimeSenseBeginsTheRampUp :
    (pumpAs (fun p => { p with state := .priming }) id).cond = .running ∧
      ((pumpAs (fun p => { p with state := .priming }) id).pump 0).state = .priming ∧ (fresh.pump 0).state ≠ .priming := by
  decide +kernel

theorem test_hypotheses_of_ExpiriesFaultThePump :
    let priming := pumpAs (fun p => { p with state := .priming, primeTimer := some 0 }) id
    priming.cond = .running ∧ (priming.pump 0).state = .priming ∧ (priming.pump 0).primeTimer.isSome = true ∧
      rampingUp.cond = .running ∧ (rampingUp.pump 0).state = .rampUp ∧ (rampingUp.pump 0).feedbackTimer.isSome = true ∧
      ((after (.feedbackDueExpiry 0 false) rampingUp).pump 0).cause = some .noFeedback ∧
      ((after (.feedbackDueExpiry 0 true) rampingUp).pump 0).supervised = true := by decide +kernel

theorem test_hypotheses_of_RunAndRestTimersActAtTheirExpiry :
    let resting := fun (h : Bool) => pumpAs (fun p => { p with state := .resting, restTimer := some 0, holdPending := h }) id
    let worked := fun (n : Nat) =>
      (after (.runSecond 0) (pumpAs (fun p => { p with state := .running, accumulator := n }) id)).pump 0
    (runningPump.pump 0).state = .running ∧ (runningPump.pump 0).minRunTimer.isSome = true ∧
      ((resting false).pump 0).restTimer.isSome = true ∧ ((after (.restTimerExpiry 0) (resting false)).pump 0).state = .idle ∧
      ((after (.restTimerExpiry 0) (resting true)).pump 0).state = .held ∧ (worked 58).accumulator = 59 ∧
      (worked 59).runMinutes = 1 := by decide +kernel

theorem test_hypotheses_of_StepCompletionGoesOnOrEndsThePlay :
    let play := fun (st : PumpState) (m : PlayMode) (cur : Fin 64) (runaway : Nat) (finish : Bool) =>
      after (.stepCompletion 0) (pumpAs (fun p => { p with state := st, finishing := finish, primeTimer := none })
        (fun q => { q with playing := true, mode := some m, start := some cur, step := some cur, tick := some 100000,
                           timeLeft := some 0, runaway := runaway, finish := finish }))
    (rampingUp.player 0).step = some 0 ∧ (rampingUp.player 0).start = some 0 ∧ (rampingUp.player 0).tick = some 100000 ∧
      (rampingUp.player 0).finish = false ∧
      ((play .rampUp .oneShot 63 62 false).player 0).step = some 0 ∧
      ((play .running .loop 19 0 false).player 0).step = some 19 ∧
      ((play .rampUp .oneShot 5 5 false).pump 0).state = .running ∧ ((play .rampUp .oneShot 0 0 true).pump 0).state = .rampDown ∧
      ((play .running .loop 16 0 true).pump 0).state = .rampDown ∧ ((play .rampDown .oneShot 35 3 false).pump 0).state = .resting ∧
      ((play .rampDown .oneShot 63 63 false).pump 0).cause = some .profileFault := by decide +kernel

theorem test_hypotheses_of_OutputPinsFollowTheState :
    rampingUp.cond = .running ∧ rampingUp.straps.pumps.val < 4 ∧ rampingUp.valveOpen 0 = false ∧
      (runDrives 1000 rampingUp).duty[0] = 200 ∧ (runDrives 1000 rampingUp).position = 0 ∧
      (runDrives 1001 rampingUp).position = 1 ∧ (runDrives 999 rampingUp).position = 999 ∧
      (contending 0).arb.window.any (fun w => decide (w.elapsed < 7000)) = true ∧ (contending 3).lineDriven = true ∧
      (contending 2).lineDriven = false ∧ faulted.attnLow = true ∧ State.reset.attnLow = false ∧
      ({ fresh with port := { fresh.port with flags := 1 } } : State).attnLow = true := by decide +kernel

/-- An own confirmation on the line, its lead 0xC3: start bit, data bits least significant first, parity, stop bit, and released
after its four characters. -/
theorem test_own_frame_on_the_line :
    let level := fun (elapsed : Nat) =>
      let s := confirming 0
      State.lineDriven { s with line := { s.line with tx := s.line.tx.map (fun t => { t with elapsed := elapsed }) } }
    (confirming 0).arb.part ≠ .contending ∧
      [0, 32, 64, 96, 128, 160, 192, 224, 256, 288, 320, 351, 352].map level =
        [true, false, false, true, true, true, true, false, false, true, false, false, true] ∧
      level 1407 = false ∧ level 1408 = false := by decide +kernel

/-- CHECK is low while a pulse runs, and SDO carries each character most significant bit first. -/
theorem test_check_and_sdo :
    (checked (fun k => { k with pulse := some 0 })).checkLow = true ∧ (checked id).checkLow = false ∧
      (open₁ fresh).sdoBit 0 = none ∧
      ((List.range 16).map (after .readFlagChanges (open₁ fresh)).sdoBit).take 8 =
        [true, false, true, false, false, false, false, false].map some ∧
      (after .readFlagChanges (open₁ fresh)).sdoBit 800 = some false ∧
      (after .transactionEnd (after .readFlagChanges (open₁ fresh))).sdoBit 0 = none := by decide +kernel

/-- A polder scan on probe `p` with the code of its first window. -/
def scanning (p : Fin 6) (first : Option Nat) (tried : Nat) (s : State) : State :=
  let polder : GaugeGroup := { s.gauge.polder with scan := some ⟨p, first, tried, 20000⟩ }
  { s with gauge := { s.gauge with polder := polder } }

theorem test_hypotheses_of_CountingWindowRecordsAndPairs :
    let scanAfter := fun (p : Fin 6) (first : Option Nat) (tried probe reference : Nat) =>
      (after (.countingWindowEnd .polder probe reference) (scanning p first tried fresh)).gauge.polder.scan
    scanAfter 0 none 1 65535 65535 = some ⟨0, some 0, 1, 0⟩ ∧ scanAfter 0 none 1 65536 0 = some ⟨0, none, 2, 0⟩ ∧
      scanAfter 0 (some 0) 1 80 0 = some ⟨0, none, 2, 0⟩ ∧ scanAfter 0 (some 5) 0 0 1 = some ⟨0, none, 1, 0⟩ ∧
      scanAfter 0 (some 0) 2 64 0 = some ⟨1, none, 0, 0⟩ ∧ scanAfter 1 (some 4) 0 0 0 = some ⟨2, none, 0, 0⟩ ∧
      scanAfter 2 (some 255) 0 65535 0 = some ⟨3, none, 0, 0⟩ ∧ fresh.straps.pumps = 3 ∧
      scanAfter 0 none 2 65535 65535 = some ⟨0, some 0, 2, 0⟩ ∧ scanAfter 0 none 2 96 0 = some ⟨0, some 6, 2, 0⟩ ∧
      scanAfter 0 none 2 65536 0 = some ⟨1, none, 0, 0⟩ ∧ scanAfter 2 (some 0) 2 80 0 = some ⟨3, none, 0, 0⟩ ∧
      ((after (.countingWindowEnd .polder 80 0) (scanning 2 (some 0) 2 fresh)).gauge.probes[2]).unsteady = true := by
  decide +kernel

/-- Station 5 with one pump, RUNNING, on its third probe; P0 and P1 have read 200. -/
def lastProbe (run : Nat) (low : Bool) : State :=
  let s := scanning 2 (some 20) 0 (after (.strapReadingComplete ⟨0, 5, 0, 2, 2, 1, 3, 0⟩) State.reset)
  let r : Probe := { lastCode := some 200, counts := none, hop := 0, overflow := false, unsteady := false }
  let gauge := { s.gauge with probes := (s.gauge.probes.set 0 r).set 1 r, sumpA := ⟨low, run⟩ }
  { s with gauge := gauge, pumps := s.pumps.set 0 { s.pump 0 with state := .running } }

theorem test_hypotheses_of_PolderReadingStopsPumpsOfALowSump :
    let read := fun (s : State) (code : Nat) => after (.countingWindowEnd .polder (16 * code) 0) s
    (lastProbe 1 false).cond = .running ∧ (lastProbe 1 false).straps.pumps = 0 ∧
      (lastProbe 1 false).gauge.polder.scan.map (fun c => (c.probe, c.first)) = some (2, some 20) ∧
      (lastProbe 1 false).gauge.probes[0].unsteady = false ∧ (lastProbe 1 false).gauge.probes[1].lastCode = some 200 ∧
      (read (lastProbe 1 false) 23).gauge.sumpA.low = true ∧ ((read (lastProbe 1 false) 23).pump 0).state = .resting ∧
      (read (lastProbe 1 false) 24).gauge.sumpA = ⟨false, 0⟩ ∧ ((read (lastProbe 1 false) 24).pump 0).state = .running ∧
      (read (lastProbe 1 false) 24).gauge.polder.heldClass = some 7 := by decide +kernel

/-- A scan that ends at P3 with both sumps judged, one that ends by a third drop and forms no level, and an outfall scan. -/
theorem test_hypotheses_of_the_other_scan_ends :
    let r : Probe := { lastCode := some 20, counts := none, hop := 0, overflow := false, unsteady := false }
    let last := fun (lost : Bool) (first : Option Nat) (tried : Nat) =>
      let s := scanning 3 first tried fresh
      let q : Probe := { r with unsteady := lost }
      { s with gauge := { s.gauge with probes := ((s.gauge.probes.set 0 q).set 1 q).set 2 r, sumpB := ⟨false, 1⟩ } }
    let read := fun (s : State) => (after (.countingWindowEnd .polder 0 0) s).gauge
    let outfall : GaugeGroup := { fresh.gauge.outfall with scan := some ⟨5, some 0, 0, 20000⟩ }
    let river := after (.countingWindowEnd .outfall 0 0) { fresh with gauge := { fresh.gauge with outfall := outfall } }
    fresh.straps.pumps = 3 ∧ (read (last false (some 0) 0)).sumpB = ⟨true, 0⟩ ∧
      (read (last false (some 0) 0)).sumpA = ⟨false, 1⟩ ∧ (read (last false (some 0) 0)).polder.heldClass = some 0 ∧
      (read (last true (some 5) 2)).sumpB = ⟨false, 1⟩ ∧ (read (last true (some 5) 2)).polder.heldClass = none ∧
      (read (last true (some 5) 2)).probes[3] =
        { lastCode := none, counts := some (0, 0), hop := 0, overflow := false, unsteady := true } ∧
      (read (last true none 2)).probes[3].unsteady = false ∧
      ((after (.countingWindowEnd .polder 65536 0) (last true none 2)).gauge.probes[3]) =
        { lastCode := none, counts := none, hop := 0, overflow := true, unsteady := true } ∧
      (read (last false (some 0) 0)).probes[3] =
        { lastCode := some 0, counts := some (0, 0), hop := 0, overflow := false, unsteady := false } ∧
      river.gauge.outfall.heldClass = some 0 ∧
      river.ownOffer = some 62 ∧ river.gauge.outfall.scan = some ⟨4, none, 0, 0⟩ := by decide +kernel

theorem test_hypotheses_of_HeldClassMovesAfterTwoReadings :
    rawClass 7 0 226 = 7 ∧ rawClass 7 0 225 = 6 ∧ rawClass 0 8 24 = 1 ∧ rawClass 0 8 23 = 0 ∧
      heldAfter (some 3) (some 5) (some 6) 4 4 = 4 ∧ heldAfter (some 3) (some 1) (some 1) 2 2 = 2 ∧
      heldAfter (some 3) (some 3) (some 3) 4 4 = 3 := by decide

theorem takes_open (s : State) (h : s.cond = .running) : (open₁ s).takes := by
  unfold State.takes open₁ after exec execTransactionBegin
  simp [h]

theorem test_hypotheses_of_TransactionsTakeOneCommandEach :
    State.reset.cond = .strapReading ∧ (after .coldReset fresh).cond = .reset .cold ∧
      Instr.readCables.serviceCode.isSome = true ∧ fresh.port.selected = false ∧
      (after .readCables (open₁ fresh)).port.answer.isSome = true := by decide +kernel

theorem test_hypotheses_of_StatusIsJudgedByConditionFirst :
    let s := open₁ faulted
    s.cond = .strapFault ∧ s.port.selected = true ∧ s.port.answer = none ∧ (open₁ State.reset).port.selected = true ∧
      (open₁ State.reset).port.answer = none ∧ (open₁ State.reset).cond = .strapReading ∧
      Instr.readStation.serviceCode.isSome = true ∧ (Instr.unknown 0x16).serviceCode = some 0x16 ∧
      WellFormed (.unknown 0x16) = true ∧ WellFormed .readStation = true ∧ (parameterCount 0x10).isSome = true ∧
      (after .readStation s).port.answer = some [0xA0, 1, 2, 0, 0, 0, 0, 0, 0, 0, 1, 0, 0x3F] := by decide +kernel

theorem test_hypotheses_of_the_service_commands :
    (open₁ fresh).takes ∧ (open₁ member).takes ∧ (open₁ runningPump).takes ∧ (open₁ rampingUp).takes :=
  ⟨takes_open _ (by decide +kernel), takes_open _ (by decide +kernel), takes_open _ (by decide +kernel),
    takes_open _ (by decide +kernel)⟩

theorem test_hypotheses_of_ReadsAnswerTheirRecordAndChangeNothing :
    let n := fun (c : Instr) => (after c (open₁ fresh)).port.answer.map List.length
    (open₁ fresh).takes ∧ n .readStation = some 38 ∧ n (.readEntry 15 .idle) = some 16 ∧ n (.readEntry 16 .idle) = some 1 ∧
      n (.readPump 3) = some 14 ∧ n (.readPump 4) = some 1 ∧ n (.readProbe 0 3) = some 8 ∧ n (.readProbe 0 4) = some 1 ∧
      n (.readProbe 1 1) = some 8 ∧ n (.readProbe 1 2) = some 1 ∧ n (.readProbe 2 0) = some 1 ∧ n .readCables = some 11 :=
  ⟨takes_open _ (by decide +kernel), by decide +kernel⟩

theorem test_hypotheses_of_ReadFlagChangesEmptiesTheQueue : (open₁ fresh).takes := takes_open _ (by decide +kernel)

theorem test_hypotheses_of_ProfileWritesAreJudgedRangeThenBusy :
    let w := fun (s : State) (c : Instr) => (after c (open₁ s)).port.answer
    (open₁ fresh).takes ∧ (open₁ rampingUp).takes ∧ w fresh (.writeStep 64 0 1 0) = some [0xA2] ∧
      w fresh (.writeStep 0 101 1 0) = some [0xA2] ∧ w fresh (.writeStep 0 0 0 0) = some [0xA2] ∧
      w fresh (.writeStep 0 0 1 2) = some [0xA2] ∧ w rampingUp (.writeStep 0 0 1 0) = some [0xA1] ∧
      w fresh (.writeStep 0 0 1 0) = some [0xA0] ∧ w fresh (.writePointers 4 0 0 0 1) = some [0xA2] ∧
      w fresh (.writePointers 0 0 64 0 1) = some [0xA2] ∧ w fresh (.writePointers 0 0 0 0 9) = some [0xA2] ∧
      w rampingUp (.writePointers 0 0 0 0 1) = some [0xA1] ∧ w rampingUp (.writePointers 3 63 0xFF 63 8) = some [0xA0] :=
  ⟨takes_open _ (by decide +kernel), takes_open _ (by decide +kernel), by decide +kernel⟩

theorem test_hypotheses_of_HoldPumpActsByThePumpsState :
    let held := fun (st : PumpState) (finishing playing : Bool) =>
      ((after (.holdPump 0) (open₁ (pumpAs (fun p => { p with state := st, finishing := finishing })
        (fun q => { q with playing := playing })))).pump 0).state
    (open₁ rampingUp).takes ∧ held .idle false false = .held ∧ held .resting false false = .held ∧
      held .rampDown false true = .rampDown ∧ held .faulted false false = .faulted ∧ held .held false false = .held ∧
      held .absent false false = .absent ∧ held .priming false false = .resting ∧ held .rampUp true true = .rampUp ∧
      held .running false true = .running ∧ held .running false false = .rampDown :=
  ⟨takes_open _ (by decide +kernel), by decide +kernel⟩

theorem test_hypotheses_of_ReleaseClearAndSetMinutesActOnTheirPump :
    let on := fun (c : Instr) (st : PumpState) => (after c (open₁ (pumpAs (fun p => { p with state := st }) id))).pump 0
    (open₁ fresh).takes ∧ (on (.releasePump 0) .held).state = .resting ∧ (on (.releasePump 0) .idle).state = .idle ∧
      (on (.releasePump 0) .absent).state = .absent ∧ (on (.clearFault 0) .faulted).state = .resting ∧
      (on (.clearFault 0) .idle).state = .idle ∧ (on (.setRunMinutes 0 0xFFFFFF) .idle).runMinutes = 16777215 ∧
      (on (.setRunMinutes 0 5) .absent).runMinutes = 0 ∧
      ((after (.setRunMinutes 0 5) (open₁ (pumpAs (fun p =>
        { p with state := .running, secondTimer := some 0, accumulator := 59 }) id))).pump 0).accumulator = 59 ∧
      (after (.forgetEntry 16) (open₁ fresh)).port.answer = some [0xA2] ∧
      (after (.releasePump 4) (open₁ fresh)).port.answer = some [0xA2] :=
  ⟨takes_open _ (by decide +kernel), by decide +kernel⟩

/-- The answer, the active cable and the check's result after a command. -/
def cableAnswer (s : State) (c : Instr) : Option (List Byte) × Cable × CheckResult :=
  let t := after c (open₁ s)
  (t.port.answer, t.line.active, t.line.check.result)

theorem test_hypotheses_of_SelectCableAndTheCableCheckCommands :
    let lockedB := lined (fun l => { l with b := { l.b with locked := true } })
    let both := { lockedB with line := { lockedB.line with check := (checked id).line.check } }
    (open₁ fresh).takes ∧
      ([.selectCable 2, .selectCable 0, .selectCable 1, .startCheck 0, .startCheck 255, .stopCheck].map (cableAnswer fresh)) =
        [(some [0xA2], .a, .none), (some [0xA0], .a, .none), (some [0xA1], .a, .none), (some [0xA2], .a, .none),
          (some [0xA0], .a, .none), (some [0xA0], .a, .none)] ∧
      cableAnswer lockedB (.selectCable 1) = (some [0xA0], .b, .none) ∧
      ([.selectCable 1, .startCheck 1, .stopCheck].map (cableAnswer both)) =
        [(some [0xA0], .b, .aborted), (some [0xA1], .a, .none), (some [0xA0], .a, .aborted)] :=
  ⟨takes_open _ (by decide +kernel), by decide +kernel⟩

theorem test_hypotheses_of_ForgetEntryAndClearCountersClearWhatTheyName :
    let lost := { fresh with table := { fresh.table with entries := fresh.table.entries.set 15 (heard 8 none 0 0 none) } }
    (open₁ lost).takes ∧ ((open₁ lost).table.entries[15]).status = .lost ∧ (open₁ lost).own = 5 ∧
      ((after (.forgetEntry 15) (open₁ lost)).table.entries[15]).status = .empty ∧
      (after (.forgetEntry 0) (open₁ lost)).port.answer = some [0xA2] :=
  ⟨takes_open _ (by decide +kernel), by decide +kernel⟩

theorem test_hypotheses_of_AttentionMaskIsReplacedWhole :
    (open₁ fresh).takes ∧ 64 ≤ (0x40 : Byte).toNat ∧ (0x3F : Byte).toNat < 64 :=
  ⟨takes_open _ (by decide +kernel), by decide⟩

theorem test_hypotheses_of_ClearAttentionClearsTheMarkedFlags :
    (open₁ fresh).takes ∧ 64 ≤ (0x40 : Byte).toNat ∧ (0x3F : Byte).toNat < 64 ∧
      Attention.flood.bit &&& BitVec.ofNat 6 0x04 = Attention.flood.bit :=
  ⟨takes_open _ (by decide +kernel), by decide⟩

theorem test_hypotheses_of_ServiceCharactersReadBackAsTheCommand :
    WellFormed (.unknown 0x16) = true ∧ (Instr.unknown 0x16).serviceCharacters = some [0x16] ∧
      WellFormed (.setRunMinutes 3 0xFFFFFF) = true ∧
      (Instr.setRunMinutes 3 0xFFFFFF).serviceCharacters = some [0x33, 3, 0xFF, 0xFF, 0xFF] ∧
      wordCommand .idle 40 0xFFFFFF0333 = some (.setRunMinutes 3 0xFFFFFF) ∧ wordCommand .idle 39 0xFFFFFF0333 = none := by
  decide

/-- HOLD PUMP 2, bit by bit: taken at its sixteenth bit, not at its fifteenth, and what is clocked after it is ignored. -/
theorem test_bits_of_a_command :
    let bits := ([0, 0, 1, 1, 0, 0, 0, 0, 0, 0, 0, 0, 0, 0, 1, 0] : List Nat).map (fun b => decide (b = 1))
    transaction .idle bits = [.transactionBegin, .holdPump 2, .transactionEnd] ∧
      clockedCommand .idle (bits ++ [true, true, true]) = some (.holdPump 2) ∧ clockedCommand .idle (bits.take 15) = none ∧
      transaction .idle [] = [.transactionBegin, .transactionEnd] := by decide

theorem test_hypotheses_of_EveryStepKeepsTheTableSound : exampleStation.tableSound := by
  refine ⟨?_, by decide +kernel⟩
  unfold Entry.sound
  decide +kernel

theorem test_hypotheses_of_EveryStepKeepsThePumpsSound : fresh.pumpsSound := by
  have idle : ∀ k : PumpIx, fresh.player k = Player.reset := by decide +kernel
  refine ⟨⟨by decide +kernel, by decide +kernel⟩, fun k => ⟨?_, ?_, ?_⟩, fun h => absurd ?_ h⟩
  · rw [idle k]
    exact ⟨by decide, by decide, Or.inr (by decide)⟩
  · revert k
    unfold Pump.sound
    decide +kernel
  · revert k
    unfold State.driveSound
    decide +kernel
  · decide +kernel

theorem test_hypotheses_of_EveryStepKeepsTheStopLaws :
    ({ fresh with table := { fresh.table with accepted := 2 } } : State).districtStopHolds ∧
      (lastProbe 0 true).lowSumpHolds = False ∧
      ({ fresh with gauge := { fresh.gauge with sumpA := ⟨true, 0⟩, sumpB := ⟨true, 0⟩ } } : State).lowSumpHolds := by
  unfold State.districtStopHolds State.lowSumpHolds
  refine ⟨by decide +kernel, eq_false (by decide +kernel), by decide +kernel⟩

theorem test_hypotheses_of_EveryStepKeepsCountersAndArbiterSound : fresh.cablesSound ∧ (contending 7).arbiterSound := by
  unfold State.cablesSound CableState.sound State.arbiterSound
  decide +kernel

theorem test_hypotheses_of_SilenceLastsUntilAReset :
    (timed (fun t => { t with mode := .silent })).cond = .running ∧
      (timed (fun t => { t with mode := .silent })).timer.mode = .silent ∧
      (timed (fun t => { t with mode := .silent })).silenceHolds := by
  unfold State.silenceHolds
  decide +kernel

/-- A step from the state after reset answers a next state. -/
theorem test_hypotheses_of_every_step : ∃ t, step State.reset = .next t := ⟨_, rfl⟩

end Sys2Proof.Tests.Slice0
end

section
/-! The two commands of the service port that act on the attention unit: SET ATTENTION MASK (R174) and CLEAR ATTENTION (R175). -/

namespace Sys2Proof.Machine

open Sys2Proof

/-! ### The parameter character -/

/-- A character marks a place that carries no flag exactly where bit 6 or bit 7 makes it 64 or more. -/
theorem attentionOutOfRange_iff (m : Byte) : attentionOutOfRange m = true ↔ 64 ≤ m.toNat := by
  simp only [attentionOutOfRange, Bool.or_eq_true, BitVec.getLsbD, Nat.testBit_eq_decide_div_mod_eq, decide_eq_true_eq]
  omega

theorem attentionOutOfRange_of_lt {m : Byte} (h : m.toNat < 64) : attentionOutOfRange m = false := by
  rw [← Bool.not_eq_true, attentionOutOfRange_iff]
  omega

/-- The six places of the character are the number it holds, cut to six bits. -/
theorem attentionPlaces_eq_ofNat (m : Byte) : m.extractLsb' 0 6 = BitVec.ofNat 6 m.toNat := by
  apply BitVec.eq_of_toNat_eq
  simp [BitVec.extractLsb'_toNat]

theorem getLsbD_attentionPlaces (m : Byte) (i : Fin 6) : (m.extractLsb' 0 6).getLsbD i = m.getLsbD i := by
  simp

/-! ### The flags and ATTN -/

/-- Two words share a place that is set exactly where their bitwise and is not zero. -/
theorem and_ne_zero_iff_exists_getLsbD (x y : BitVec 6) :
    x &&& y ≠ 0 ↔ ∃ i : Fin 6, x.getLsbD i = true ∧ y.getLsbD i = true := by
  constructor
  · intro h
    by_contra hnone
    refine h (BitVec.eq_of_getLsbD_eq fun i hi => ?_)
    have hi' : ¬ (x.getLsbD i = true ∧ y.getLsbD i = true) := fun both => hnone ⟨⟨i, hi⟩, both⟩
    simpa using hi'
  · rintro ⟨i, hx, hy⟩ h
    have hbit : (x &&& y).getLsbD i = true := by simp [hx, hy]
    simp [h] at hbit

/-- While the blocks run, ATTN is low exactly where a flag is both pending and enabled (R173). -/
theorem attnLow_iff_of_running {s : State} (h : s.cond = .running) :
    s.attnLow = true ↔ ∃ i : Fin 6, s.port.flags.getLsbD i = true ∧ s.port.mask.getLsbD i = true := by
  rw [← and_ne_zero_iff_exists_getLsbD]
  simp [State.attnLow, h]

/-- An event leaves the port as ready for a command as it was (R165, R172). -/
theorem State.takes_raise {s : State} (h : s.takes) (f : Attention) : (s.raise f).takes := h

/-- A bit that is set and then cleared with the marked ones leaves no trace. -/
theorem or_and_not_of_marked {bit marks : BitVec 6} (h : bit &&& marks = bit) (flags : BitVec 6) :
    (flags ||| bit) &&& ~~~marks = flags &&& ~~~marks := by
  have hbit : bit &&& ~~~marks = 0#6 := by
    rw [← h, BitVec.and_assoc, BitVec.and_not_self]
    exact BitVec.and_zero
  rw [BitVec.and_or_distrib_right, hbit, BitVec.or_zero]

/-- After its event a flag is pending, whatever stood before. -/
theorem State.flags_raise_and_bit (f : Attention) (s : State) : (s.raise f).port.flags &&& f.bit = f.bit := by
  rw [State.flags_raise]
  ext i hi
  simpa using Or.inr

/-! ### What the two commands do -/

/-- The state after SET ATTENTION MASK is answered with OK (R174). -/
def State.withMask (m : Byte) (s : State) : State :=
  { s with port := { s.port with mask := BitVec.ofNat 6 m.toNat, answer := some [statusOk] } }

/-- The state after CLEAR ATTENTION is answered with OK (R175). -/
def State.withoutFlags (m : Byte) (s : State) : State :=
  { s with port := { s.port with flags := s.port.flags &&& ~~~BitVec.ofNat 6 m.toNat, answer := some [statusOk] } }

theorem exec_setAttentionMask (m : Byte) (s : State) :
    exec (.setAttentionMask m) s = .next (takeCommand (workSetAttentionMask m) s) := rfl

theorem exec_clearAttention (m : Byte) (s : State) :
    exec (.clearAttention m) s = .next (takeCommand (workClearAttention m) s) := rfl

theorem exec_setAttentionMask_of_ge {m : Byte} {s : State} (hs : s.takes) (hm : 64 ≤ m.toNat) :
    exec (.setAttentionMask m) s = .next (s.answering [statusRange]) := by
  rw [exec_setAttentionMask, takeCommand_of_takes hs, workSetAttentionMask, if_pos ((attentionOutOfRange_iff m).mpr hm)]
  rfl

theorem exec_clearAttention_of_ge {m : Byte} {s : State} (hs : s.takes) (hm : 64 ≤ m.toNat) :
    exec (.clearAttention m) s = .next (s.answering [statusRange]) := by
  rw [exec_clearAttention, takeCommand_of_takes hs, workClearAttention, if_pos ((attentionOutOfRange_iff m).mpr hm)]
  rfl

theorem exec_setAttentionMask_of_lt {m : Byte} {s : State} (hs : s.takes) (hm : m.toNat < 64) :
    exec (.setAttentionMask m) s = .next (s.withMask m) := by
  rw [exec_setAttentionMask, takeCommand_of_takes hs, workSetAttentionMask, attentionOutOfRange_of_lt hm,
    attentionPlaces_eq_ofNat]
  rfl

theorem exec_clearAttention_of_lt {m : Byte} {s : State} (hs : s.takes) (hm : m.toNat < 64) :
    exec (.clearAttention m) s = .next (s.withoutFlags m) := by
  rw [exec_clearAttention, takeCommand_of_takes hs, workClearAttention, attentionOutOfRange_of_lt hm,
    attentionPlaces_eq_ofNat]
  rfl

/-- ATTN reads the new mask as soon as it stands (R173, R174). -/
theorem attnLow_withMask_iff (m : Byte) {s : State} (h : s.cond = .running) :
    (s.withMask m).attnLow = true ↔ ∃ i : Fin 6, s.port.flags.getLsbD i = true ∧ m.getLsbD i = true := by
  have hmask (i : Fin 6) : (s.withMask m).port.mask.getLsbD i = m.getLsbD i := by
    rw [← getLsbD_attentionPlaces m i, attentionPlaces_eq_ofNat]
    rfl
  rw [attnLow_iff_of_running (s := s.withMask m) h]
  simp only [hmask]
  rfl

/-- An event and the new mask meet no common field, so their order does not matter (R174). -/
theorem State.withMask_raise (m : Byte) (f : Attention) (s : State) : (s.raise f).withMask m = (s.withMask m).raise f := rfl

theorem getLsbD_flags_withoutFlags (m : Byte) (s : State) (i : Fin 6) :
    (s.withoutFlags m).port.flags.getLsbD i = (s.port.flags.getLsbD i && !m.getLsbD i) := by
  rw [State.withoutFlags, ← attentionPlaces_eq_ofNat]
  simp

/-- The event of a marked flag that comes first is cleared with the others (R175). -/
theorem State.withoutFlags_raise_of_marked {m : Byte} {f : Attention} (h : f.bit &&& BitVec.ofNat 6 m.toNat = f.bit)
    (s : State) : (s.raise f).withoutFlags m = s.withoutFlags m := by
  simp only [State.withoutFlags, State.flags_raise, or_and_not_of_marked h]
  rfl

/-! ### The statements -/

/-- Settles O52: the state after the command is known whole, so ATTN in it follows, and the event of a flag commutes with it. -/
theorem attentionMaskIsReplacedWhole : Obligations.AttentionMaskIsReplacedWhole := by
  intro m s hs
  have ⟨hrun, _, _⟩ := hs
  refine ⟨exec_setAttentionMask_of_ge hs, fun hm => ⟨s.withMask m, exec_setAttentionMask_of_lt hs hm, rfl, ?_, ?_⟩⟩
  · exact attnLow_withMask_iff m hrun
  · intro f
    rw [exec_setAttentionMask_of_lt (State.takes_raise hs f) hm, State.withMask_raise]

/-- Settles O53: the state after the command is known whole, so its flags are read bit by bit; the event of a marked flag is
cleared where it comes before the command, and stands where it comes after. -/
theorem clearAttentionClearsTheMarkedFlags : Obligations.ClearAttentionClearsTheMarkedFlags := by
  intro m s hs
  refine ⟨exec_clearAttention_of_ge hs, fun hm => ⟨s.withoutFlags m, exec_clearAttention_of_lt hs hm, ?_, rfl, ?_, ?_⟩⟩
  · exact getLsbD_flags_withoutFlags m s
  · intro f hf
    rw [exec_clearAttention_of_lt (State.takes_raise hs f) hm, State.withoutFlags_raise_of_marked hf]
  · exact fun f => State.flags_raise_and_bit f (s.withoutFlags m)

end Sys2Proof.Machine
end

section
/-! The dispatch seen once: which of its commands are events that act while the blocks run, and which are commands of the service
port; and what each event can change. -/

namespace Sys2Proof.Machine

open Sys2Proof

set_option Elab.async false

/-! ### Events and service commands -/

/-- The pins that an event carries stand before it acts. -/
def eventPins : Instr → State → State
  | .roundEnd inp | .confirmationBegin inp | .startTakenOrDropped inp | .ownSlotStart inp | .characterReadBack _ _ inp
  | .foreignEdgeOnFrame inp | .frameArrival _ inp => withInputs inp
  | .primeSenseAsserted k => senseAsserted k
  | .feedbackDueExpiry k b => withRunFb k b
  | _ => id

/-- What an event of the line, the window or the cable check does while the blocks run. -/
def lineWork : Instr → Option (State → State)
  | .windowOpening => some openWindow
  | .arbitrationBitReading d => some (readArbitrationBit d)
  | .lastBitEnd => some endLastBit
  | .windowEnd => some endWindow
  | .ownSlotStart _ => some composeAnnouncement
  | .announcementTransmitBegin => some beginAnnouncement
  | .transmissionEnd => some endTransmission
  | .characterComplete c r => some (receiveCharacter c r)
  | .frameTruncated c => some (truncateFrame c)
  | .checkComparisonTimeout => some timeOutComparison
  | .checkPulseEnd => some endPulse
  | .windowDrivenLevel => some seeDrivenLevel
  | .decoderInputReleased c => some (releaseDecoder c)
  | _ => none

/-- What an event of the pumps, the players, the gauges or the settle point does while the blocks run. -/
def pumpWork : Instr → Option (State → State)
  | .settlePoint => some takeSettlePoint
  | .primeSenseAsserted k => some (primeSensed k)
  | .primeTimerExpiry k => some (primeTimerExpires k)
  | .feedbackDueExpiry k b => some (feedbackDueExpires k b)
  | .minimumRunExpiry k => some (minimumRunExpires k)
  | .restTimerExpiry k => some (restTimerExpires k)
  | .runSecond k => some (secondPasses k)
  | .stepCompletion k => some (stepCompletes k)
  | .countingWindowEnd g p r => some (endCountingWindow g p r)
  | _ => none

/-- What the round end does while the blocks run, and each event that can carry one in. -/
def roundWork : Instr → Option (State → State)
  | .roundEnd _ => some takeRoundEnd
  | .confirmationBegin _ => some beginConfirmation
  | .startTakenOrDropped _ => some takeOrDropStart
  | .characterReadBack x y _ => some (readBackCharacter x y)
  | .foreignEdgeOnFrame _ => some foreignEdge
  | .frameArrival c _ => some (arriveFrame c)
  | _ => none

/-- What a command of the service port does where it is taken. -/
def serviceWork : Instr → Option (State → State × Answer)
  | .readStation => some (readWith (fun s => .ok (stationRecord s)))
  | .readEntry k _ => some (readWith (answerEntry k))
  | .readPump k => some (readWith (answerPump k))
  | .readProbe g p => some (readWith (answerProbe g p))
  | .readCables => some (readWith (fun s => .ok (cableRecord s)))
  | .readFlagChanges => some workReadFlagChanges
  | .writeStep ix sp h m => some (workWriteStep ix sp h m)
  | .writePointers k u r d q => some (workWritePointers k u r d q)
  | .holdPump k => some (workHoldPump k)
  | .releasePump k => some (workReleasePump k)
  | .clearFault k => some (workClearFault k)
  | .setRunMinutes k m => some (workSetRunMinutes k m)
  | .selectCable c => some (workSelectCable c)
  | .startCheck n => some (workStartCheck n)
  | .stopCheck => some (fun s => (abortCheck s, .ok []))
  | .forgetEntry k => some (workForgetEntry k)
  | .clearCounters => some workClearCounters
  | .setAttentionMask m => some (workSetAttentionMask m)
  | .clearAttention m => some (workClearAttention m)
  | .unknown _ => some (fun s => (s, .unknown))
  | _ => none

/-- What an event does while the blocks run. -/
def eventWork (i : Instr) : Option (State → State) := lineWork i <|> pumpWork i <|> roundWork i

theorem eventWork_cases {i : Instr} {f : State → State} (h : eventWork i = some f) :
    lineWork i = some f ∨ pumpWork i = some f ∨ roundWork i = some f := by
  cases i <;> simp_all [eventWork, lineWork, pumpWork, roundWork]

/-- An event acts, while the blocks run, on the state with its pins. -/
theorem exec_of_eventWork {i : Instr} {f : State → State} (h : eventWork i = some f) (s : State) :
    exec i s = .next (whenRunning f (eventPins i s)) := by
  cases i <;> cases h <;> rfl

/-! ### What an event can change -/

theorem setCable_changes (c : Cable) (x : CableState) (s : State) : ∃ l', setCable c x s = { s with line := l' } := by
  cases c <;> exact ⟨_, rfl⟩

theorem receiveCharacter_changes (c : Cable) (r : Readings) (s : State) :
    ∃ l', receiveCharacter c r s = { s with line := l' } := by
  simp only [receiveCharacter]
  repeat' split
  all_goals first
    | exact ⟨_, rfl⟩
    | exact setCable_changes c _ s

/-- An event of the line or the window changes the round timer, the allocation unit, the arbiter and the line alone. -/
theorem lineWork_changes {i : Instr} {f : State → State} (h : lineWork i = some f) (s : State) :
    ∃ m' c' a' l', f s = { s with timer := m', alloc := c', arb := a', line := l' } := by
  have done (m : RoundTimer) (c : Allocation) (a : Arbiter) (l : Line) :
      ∃ m' c' a' l', ({ s with timer := m, alloc := c, arb := a, line := l } : State) =
        { s with timer := m', alloc := c', arb := a', line := l' } := ⟨m, c, a, l, rfl⟩
  cases i <;> cases h
  case transmissionEnd =>
    simp only [endTransmission]
    repeat' split
    · rename_i t _ _
      obtain ⟨_, _, h⟩ := finishTransmission_changes t s
      rw [h]
      exact done _ _ _ _
    all_goals exact done _ _ _ _
  case characterComplete c r =>
    obtain ⟨_, h⟩ := receiveCharacter_changes c r s
    rw [h]
    exact done _ _ _ _
  case frameTruncated c =>
    obtain ⟨_, h⟩ := setCable_changes c (s.line.cable c).truncated s
    rw [truncateFrame, h]
    exact done _ _ _ _
  case decoderInputReleased c =>
    obtain ⟨_, h⟩ := setCable_changes c { s.line.cable c with decoder := .seeking } s
    rw [releaseDecoder, h]
    split <;> exact done _ _ _ _
  all_goals
    simp only [openWindow, readArbitrationBit, endLastBit, endWindow, composeAnnouncement, beginAnnouncement,
      timeOutComparison, endPulse, seeDrivenLevel, markNotFree, beginTransmission, holdDecoders]
    repeat' split
    all_goals exact done _ _ _ _

end Sys2Proof.Machine
end

section
/-! What the work of the probes, the players and the pumps changes (R77 to R108, R116 to R135). -/

namespace Sys2Proof.Machine

open Sys2Proof

set_option Elab.async false

theorem setGroup_changes (g : ProbeGroup) (r : GaugeGroup) (s : State) : ∃ g', setGroup g r s = { s with gauge := g' } := by
  cases g <;> exact ⟨_, rfl⟩

theorem readFlood_changes (s : State) : ∃ g' r', readFlood s = { s with gauge := g', port := r' } := by
  simp only [readFlood]
  repeat' split
  all_goals exact ⟨_, _, rfl⟩

theorem readLevel_changes (g : ProbeGroup) (s : State) : ∃ g' r', readLevel g s = { s with gauge := g', port := r' } := by
  simp only [readLevel]
  split
  · split
    · cases g
      · exact readFlood_changes _
      · exact ⟨_, _, rfl⟩
    · exact ⟨_, _, rfl⟩
  · exact ⟨_, _, rfl⟩

theorem groupReading_changes (g : ProbeGroup) (s : State) :
    ∃ p' q' d' g' r', groupReading g s = { s with pumps := p', players := q', drives := d', gauge := g', port := r' } := by
  obtain ⟨_, _, h⟩ := readLevel_changes g s
  simp only [groupReading]
  split
  · rw [h]
    exact ⟨_, _, _, _, _, rfl⟩
  · obtain ⟨_, _, _, h'⟩ := stopLowPumps_changes s (readSumps (readLevel .polder s))
    rw [h', h]
    exact ⟨_, _, _, _, _, rfl⟩

theorem endScan_changes (g : ProbeGroup) (s : State) :
    ∃ p' q' d' g' r', endScan g s = { s with pumps := p', players := q', drives := d', gauge := g', port := r' } := by
  obtain ⟨_, h₁⟩ := setGroup_changes g { s.gauge.group g with scan := none } s
  obtain ⟨_, _, _, _, _, h₂⟩ := groupReading_changes g (setGroup g { s.gauge.group g with scan := none } s)
  obtain ⟨_, h₃⟩ := syncSampling_changes (groupReading g (setGroup g { s.gauge.group g with scan := none } s))
  simp only [endScan]
  rw [h₃, h₂, h₁]
  split <;> exact ⟨_, _, _, _, _, rfl⟩

theorem doneProbe_changes (g : ProbeGroup) (p : Fin 6) (s : State) :
    ∃ p' q' d' g' r', doneProbe g p s = { s with pumps := p', players := q', drives := d', gauge := g', port := r' } := by
  simp only [doneProbe]
  split
  · rename_i q _
    obtain ⟨_, h⟩ := setGroup_changes g { s.gauge.group g with scan := some (Scan.begin q) } s
    exact ⟨_, _, _, _, _, h⟩
  · exact endScan_changes g s

theorem dropPair_changes (g : ProbeGroup) (c : Scan) (s : State) :
    ∃ p' q' d' g' r', dropPair g c s = { s with pumps := p', players := q', drives := d', gauge := g', port := r' } := by
  simp only [dropPair]
  split
  · obtain ⟨_, _, _, _, _, h⟩ :=
      doneProbe_changes g c.probe (setProbe c.probe { s.gauge.probes[c.probe] with unsteady := true } s)
    exact ⟨_, _, _, _, _, h⟩
  · obtain ⟨_, h⟩ := setGroup_changes g
      { s.gauge.group g with scan := some { c with first := none, tried := c.tried + 1, windowTime := 0 } } s
    exact ⟨_, _, _, _, _, h⟩

/-- The state in which a window of group `g` on the probe of scan `c` has been recorded and the hop setting has advanced (R123,
R124). -/
def recordWindow (g : ProbeGroup) (c : Scan) (p r : Nat) (s : State) : State :=
  setGroup g { s.gauge.group g with hop := (s.gauge.group g).hop + 1 }
    (setProbe c.probe ((s.gauge.probes[c.probe]).afterWindow (s.gauge.group g).hop p r) s)

@[simp] theorem group_setProbe (g : ProbeGroup) (p : Fin 6) (r : Probe) (s : State) :
    (setProbe p r s).gauge.group g = s.gauge.group g := by
  cases g <;> rfl

theorem recordWindow_changes (g : ProbeGroup) (c : Scan) (p r : Nat) (s : State) :
    ∃ g', recordWindow g c p r s = { s with gauge := g' } := by
  cases g <;> exact ⟨_, rfl⟩

/-- A group that is not scanning counts no window. -/
theorem endCountingWindow_of_none {g : ProbeGroup} {s : State} (h : (s.gauge.group g).scan = none) (p r : Nat) :
    endCountingWindow g p r s = s := by
  unfold endCountingWindow
  rw [h]

theorem endCountingWindow_of_half {g : ProbeGroup} {c : Scan} {s : State} {p r code : Nat}
    (h : (s.gauge.group g).scan = some c) (hj : judgePair c.first (windowCode p r) = .half code) :
    endCountingWindow g p r s =
      setGroup g { (recordWindow g c p r s).gauge.group g with scan := some { c with first := some code, windowTime := 0 } }
        (recordWindow g c p r s) := by
  unfold endCountingWindow
  rw [h]
  simp only [hj, group_setProbe]
  rfl

theorem endCountingWindow_of_accepted {g : ProbeGroup} {c : Scan} {s : State} {p r code : Nat}
    (h : (s.gauge.group g).scan = some c) (hj : judgePair c.first (windowCode p r) = .accepted code) :
    endCountingWindow g p r s =
      doneProbe g c.probe
        (setProbe c.probe { (recordWindow g c p r s).gauge.probes[c.probe] with
                            lastCode := some code, unsteady := false, overflow := false } (recordWindow g c p r s)) := by
  unfold endCountingWindow
  rw [h]
  simp only [hj, group_setProbe]
  rfl

theorem endCountingWindow_of_dropped {g : ProbeGroup} {c : Scan} {s : State} {p r : Nat}
    (h : (s.gauge.group g).scan = some c) (hj : judgePair c.first (windowCode p r) = .dropped) :
    endCountingWindow g p r s = dropPair g c (recordWindow g c p r s) := by
  unfold endCountingWindow
  rw [h]
  simp only [hj, group_setProbe]
  rfl

theorem endCountingWindow_changes (g : ProbeGroup) (p r : Nat) (s : State) :
    ∃ p' q' d' g' r', endCountingWindow g p r s =
      { s with pumps := p', players := q', drives := d', gauge := g', port := r' } := by
  cases hc : (s.gauge.group g).scan with
  | none => exact ⟨_, _, _, _, _, endCountingWindow_of_none hc p r⟩
  | some c =>
    obtain ⟨_, hw⟩ := recordWindow_changes g c p r s
    cases hj : judgePair c.first (windowCode p r) with
    | half code =>
      obtain ⟨_, h⟩ := setGroup_changes g _ _
      rw [endCountingWindow_of_half hc hj, h, hw]
      exact ⟨_, _, _, _, _, rfl⟩
    | accepted code =>
      obtain ⟨_, _, _, _, _, h⟩ := doneProbe_changes g c.probe _
      rw [endCountingWindow_of_accepted hc hj, h, hw]
      exact ⟨_, _, _, _, _, rfl⟩
    | dropped =>
      obtain ⟨_, _, _, _, _, h⟩ := dropPair_changes g c (recordWindow g c p r s)
      rw [endCountingWindow_of_dropped hc hj, h, hw]
      exact ⟨_, _, _, _, _, rfl⟩

theorem playEnded_changes (k : PumpIx) (s : State) :
    ∃ p' q' d', playEnded k s = { s with pumps := p', players := q', drives := d' } := by
  obtain ⟨_, _, h⟩ := enterRunning_changes k s
  simp only [playEnded]
  repeat' split
  all_goals first
    | exact ⟨_, _, _, h⟩
    | exact ⟨_, _, _, rfl⟩

theorem playRanAway_changes (k : PumpIx) (s : State) :
    ∃ p' q' d' r', playRanAway k s = { s with pumps := p', players := q', drives := d', port := r' } := by
  simp only [playRanAway]
  split <;> exact ⟨_, _, _, _, rfl⟩

/-- A player that plays no step completes none. -/
theorem stepCompletes_of_not {k : PumpIx} {s : State} (h : (s.player k).playing = false ∨ (s.player k).step = none) :
    stepCompletes k s = s := by
  unfold stepCompletes
  rcases h with h | h <;> simp [h]

/-- What the completion of a step makes of the player, and what its controller does with the report (R111, R112, R115). -/
theorem stepCompletes_of_playing {k : PumpIx} {s : State} {cur : Fin 64} (hp : (s.player k).playing = true)
    (hs : (s.player k).step = some cur) :
    (∃ p, (s.player k).complete s.profile cur = .goesOn p ∧ stepCompletes k s = s.setPlayer k p) ∨
    (∃ p, (s.player k).complete s.profile cur = .ends p ∧ stepCompletes k s = playEnded k (s.setPlayer k p)) ∨
    (∃ p, (s.player k).complete s.profile cur = .runaway p ∧ stepCompletes k s = playRanAway k (s.setPlayer k p)) := by
  unfold stepCompletes
  simp only [hp, hs]
  cases (s.player k).complete s.profile cur with
  | goesOn p => exact .inl ⟨p, rfl, rfl⟩
  | ends p => exact .inr (.inl ⟨p, rfl, rfl⟩)
  | runaway p => exact .inr (.inr ⟨p, rfl, rfl⟩)

theorem stepCompletes_changes (k : PumpIx) (s : State) :
    ∃ p' q' d' r', stepCompletes k s = { s with pumps := p', players := q', drives := d', port := r' } := by
  cases hp : (s.player k).playing with
  | false => exact ⟨_, _, _, _, stepCompletes_of_not (.inl hp)⟩
  | true =>
    cases hs : (s.player k).step with
    | none => exact ⟨_, _, _, _, stepCompletes_of_not (.inr hs)⟩
    | some cur =>
      obtain ⟨p, _, h⟩ | ⟨p, _, h⟩ | ⟨p, _, h⟩ := stepCompletes_of_playing hp hs
      · exact ⟨_, _, _, _, h⟩
      · obtain ⟨_, _, _, h'⟩ := playEnded_changes k (s.setPlayer k p)
        exact ⟨_, _, _, _, h.trans h'⟩
      · obtain ⟨_, _, _, _, h'⟩ := playRanAway_changes k (s.setPlayer k p)
        exact ⟨_, _, _, _, h.trans h'⟩

/-- An event of a pump changes the pumps with their players and drives and the port alone. -/
theorem pumpWork_cases {i : Instr} {f : State → State} (h : pumpWork i = some f) (s : State) :
    i = .settlePoint ∨ (∃ g p r, i = .countingWindowEnd g p r) ∨
      ∃ p' q' d' r', f s = { s with pumps := p', players := q', drives := d', port := r' } := by
  cases i <;> cases h
  case settlePoint => exact .inl rfl
  case countingWindowEnd g p r => exact .inr (.inl ⟨g, p, r, rfl⟩)
  all_goals refine .inr (.inr ?_)
  case stepCompletion k => exact stepCompletes_changes k s
  all_goals
    simp only [primeSensed, primeTimerExpires, feedbackDueExpires, minimumRunExpires, restTimerExpires, secondPasses]
    repeat' split
    all_goals exact ⟨_, _, _, _, rfl⟩

theorem takeSettlePoint_changes (s : State) :
    ∃ m' c' p' q' d', takeSettlePoint s = { s with timer := m', alloc := c', pumps := p', players := q', drives := d' } := by
  obtain ⟨_, _, _, _, h⟩ := settleWork_changes { s with timer := { s.timer with settleTaken := true } }
  rw [takeSettlePoint, h]
  split <;> exact ⟨_, _, _, _, _, rfl⟩

/-- The settle point changes the round timer's marks and the allocation unit too. -/
theorem pumpWork_changes {i : Instr} {f : State → State} (h : pumpWork i = some f) (s : State) :
    ∃ m' c' p' q' d' g' r', f s =
      { s with timer := m', alloc := c', pumps := p', players := q', drives := d', gauge := g', port := r' } := by
  obtain rfl | ⟨g, p, r, rfl⟩ | ⟨_, _, _, _, e⟩ := pumpWork_cases h s
  · cases h
    obtain ⟨_, _, _, _, _, e⟩ := takeSettlePoint_changes s
    exact ⟨_, _, _, _, _, _, _, e⟩
  · cases h
    obtain ⟨_, _, _, _, _, e⟩ := endCountingWindow_changes g p r s
    exact ⟨_, _, _, _, _, _, _, e⟩
  · exact ⟨_, _, _, _, _, _, _, e⟩

end Sys2Proof.Machine
end

section
/-! What the work of the frames and of the commands changes (R34 to R76, R160 to R176). -/

namespace Sys2Proof.Machine

open Sys2Proof

set_option Elab.async false

theorem finishConfirmation_changes (s : State) : ∃ a' l', finishConfirmation s = { s with arb := a', line := l' } := by
  simp only [finishConfirmation]
  split
  · split
    · exact finishTransmission_changes _ s
    · exact ⟨_, _, rfl⟩
  · exact ⟨_, _, rfl⟩

theorem takeOrDropStart_changes (s : State) :
    ∃ t' m' p' q' d' g' l' r' n' a', takeOrDropStart s =
      { s with table := t', timer := m', pumps := p', players := q', drives := d', gauge := g', line := l', port := r', free := n', arb := a' } := by
  obtain ⟨_, _, h⟩ := finishConfirmation_changes s
  simp only [takeOrDropStart, h]
  split
  · obtain ⟨_, _, _, h₁⟩ := takeStart_changes
      { s with arb := _, line := _, table := { s.table with ownStartSeen := some s.timer.count } }
    rw [h₁]
    obtain ⟨_, _, _, _, _, _, _, _, _, _, h₂⟩ := releaseRealignment_changes _
    rw [h₂]
    exact ⟨_, _, _, _, _, _, _, _, _, _, rfl⟩
  · exact ⟨_, _, _, _, _, _, _, _, _, _, rfl⟩

theorem judgeFrame_changes (c : Cable) (x : Assembly) (s : State) :
    ∃ t' m' p' q' d' g' l' r' n' a', judgeFrame c x s =
      { s with table := t', timer := m', pumps := p', players := q', drives := d', gauge := g', line := l', port := r', free := n', arb := a' } := by
  have failed (s : State) : ∃ l', failedArrival c s = { s with line := l' } := by
    simp only [failedArrival]
    split
    · exact ⟨_, rfl⟩
    · exact checkStandbyFrame_changes _ s
  simp only [judgeFrame]
  split
  · obtain ⟨_, h⟩ := failed s
    exact ⟨_, _, _, _, _, _, _, _, _, _, h⟩
  · split
    · obtain ⟨_, _, _, _, _, _, _, _, _, _, h⟩ := offerFrame_changes x s
      simp only [validArrival]
      rw [h]
      split
      · obtain ⟨_, h₁⟩ := setCable_changes c _ _
        obtain ⟨_, h₂⟩ := checkActiveFrame_changes x.chars _
        rw [h₂, h₁]
        exact ⟨_, _, _, _, _, _, _, _, _, _, rfl⟩
      · obtain ⟨_, h₁⟩ := setCable_changes c _ _
        obtain ⟨_, h₂⟩ := checkStandbyFrame_changes (some x.chars) _
        rw [h₂, h₁]
        exact ⟨_, _, _, _, _, _, _, _, _, _, rfl⟩
    · obtain ⟨_, h₁⟩ := setCable_changes c _ _
      obtain ⟨_, h₂⟩ := failed _
      rw [h₂, h₁]
      exact ⟨_, _, _, _, _, _, _, _, _, _, rfl⟩

/-- The round end, and an event that can carry one in, leave the part's condition, the straps, the pins, the allocation unit, the
profile memory and the queue as they were. -/
theorem roundWork_changes {i : Instr} {f : State → State} (h : roundWork i = some f) (s : State) :
    ∃ t' m' p' q' d' g' l' r' n' a', f s =
      { s with table := t', timer := m', pumps := p', players := q', drives := d', gauge := g', line := l', port := r', free := n', arb := a' } := by
  have done (t : Table) (m : RoundTimer) (p : Vector Pump 4) (q : Vector Player 4) (d : Drives) (g : Gauge) (l : Line) (r : Port)
      (n : Nat) (a : Arbiter) : ∃ t' m' p' q' d' g' l' r' n' a',
        ({ s with table := t, timer := m, pumps := p, players := q, drives := d, gauge := g, line := l, port := r, free := n, arb := a } : State) =
        { s with table := t', timer := m', pumps := p', players := q', drives := d', gauge := g', line := l', port := r', free := n', arb := a' } :=
    ⟨t, m, p, q, d, g, l, r, n, a, rfl⟩
  cases i <;> cases h
  case roundEnd =>
    obtain ⟨_, _, _, _, _, _, _, _, _, h⟩ := roundEndWork_changes s
    rw [takeRoundEnd, h]
    exact done _ _ _ _ _ _ _ _ _ _
  case confirmationBegin =>
    have h := releaseRealignment_changes s
    simp only [beginConfirmation]
    repeat' split
    all_goals first
      | exact h
      | exact done _ _ _ _ _ _ _ _ _ _
  case startTakenOrDropped => exact takeOrDropStart_changes s
  case characterReadBack =>
    simp only [readBackCharacter]
    repeat' split
    · exact done _ _ _ _ _ _ _ _ _ _
    · exact done _ _ _ _ _ _ _ _ _ _
    · exact done _ _ _ _ _ _ _ _ _ _
    · exact failReadBack_changes _ s
  case foreignEdgeOnFrame =>
    simp only [foreignEdge]
    split
    · exact failReadBack_changes _ s
    · exact done _ _ _ _ _ _ _ _ _ _
  case frameArrival c _ =>
    simp only [arriveFrame]
    split
    · exact done _ _ _ _ _ _ _ _ _ _
    · split
      · obtain ⟨_, h₁⟩ := setCable_changes c { s.line.cable c with assembly := none } s
        obtain ⟨_, _, _, _, _, _, _, _, _, _, h₂⟩ := judgeFrame_changes c _ _
        rw [h₂, h₁]
        exact done _ _ _ _ _ _ _ _ _ _
      · exact done _ _ _ _ _ _ _ _ _ _

/-- No event changes the part's condition, the straps, the pins, the profile memory, the pointer table or the queue. -/
theorem eventWork_frame {i : Instr} {f : State → State} (h : eventWork i = some f) (s : State) :
    (f s).cond = s.cond ∧ (f s).straps = s.straps ∧ (f s).inputs = s.inputs ∧ (f s).profile = s.profile ∧
      (f s).pointers = s.pointers ∧ (f s).pending = s.pending := by
  obtain h | h | h := eventWork_cases h
  · obtain ⟨_, _, _, _, e⟩ := lineWork_changes h s
    rw [e]
    exact ⟨rfl, rfl, rfl, rfl, rfl, rfl⟩
  · obtain ⟨_, _, _, _, _, _, _, e⟩ := pumpWork_changes h s
    rw [e]
    exact ⟨rfl, rfl, rfl, rfl, rfl, rfl⟩
  · obtain ⟨_, _, _, _, _, _, _, _, _, _, e⟩ := roundWork_changes h s
    rw [e]
    exact ⟨rfl, rfl, rfl, rfl, rfl, rfl⟩

theorem eventPins_changes (i : Instr) (s : State) : ∃ p', eventPins i s = { s with inputs := p' } := by
  cases i <;> exact ⟨_, rfl⟩

/-! ### The taking of a service command -/

/-- A taken command forms an answer, with its own work where the blocks run. -/
theorem takeCommand_cases (w : State → State × Answer) (s : State) :
    takeCommand w s = s ∨ (∃ a, takeCommand w s = giveAnswer a s) ∨
      (s.cond = .running ∧ takeCommand w s = giveAnswer (w s).2 (w s).1) := by
  unfold takeCommand
  split
  · cases s.cond with
    | reset => exact .inl rfl
    | strapReading => exact .inr (.inl ⟨_, rfl⟩)
    | strapFault => exact .inr (.inl ⟨_, rfl⟩)
    | running => exact .inr (.inr ⟨rfl, rfl⟩)
  · exact .inl rfl

/-- A service command is taken with the pins that READ ENTRY carries. -/
theorem exec_of_serviceWork {i : Instr} {w : State → State × Answer} (h : serviceWork i = some w) (hi : WellFormed i = true)
    {s : State} (hs : s.cond ≠ .strapFault) : exec i s = .next (takeCommand w { s with inputs := s.pinsAfter i }) := by
  cases i <;> cases h
  case unknown c =>
    have hc : (parameterCount c).isNone = true := hi
    simp [exec, execUnknown, hc, State.pinsAfter]
  case readStation => simp [exec, execReadStation, takeReadStation, hs, State.pinsAfter]
  all_goals rfl

/-- What a command of the service port can make of a state. -/
theorem exec_service_cases {i : Instr} {w : State → State × Answer} (h : serviceWork i = some w) (s : State) :
    ∃ t, exec i s = .next t ∧
      ((∃ r, t = { s with inputs := s.pinsAfter i, port := r }) ∨
        (s.cond = .running ∧ ∃ a, t = giveAnswer a (w { s with inputs := s.pinsAfter i }).1)) := by
  have taken (x : State) (hx : x = { s with inputs := s.pinsAfter i }) :
      (∃ r, takeCommand w x = { s with inputs := s.pinsAfter i, port := r }) ∨
        (s.cond = .running ∧ ∃ a, takeCommand w x = giveAnswer a (w { s with inputs := s.pinsAfter i }).1) := by
    subst hx
    obtain h | ⟨a, h⟩ | ⟨hr, h⟩ := takeCommand_cases w { s with inputs := s.pinsAfter i }
    · exact .inl ⟨_, h⟩
    · exact .inl ⟨_, h⟩
    · exact .inr ⟨hr, _, h⟩
  cases i <;> cases h
  case unknown c =>
    refine ⟨_, rfl, ?_⟩
    split
    · exact taken s rfl
    · exact .inl ⟨_, rfl⟩
  case readStation =>
    refine ⟨_, rfl, ?_⟩
    unfold takeReadStation
    split
    · exact .inl ⟨_, rfl⟩
    · exact taken s rfl
  all_goals exact ⟨_, rfl, taken _ rfl⟩

end Sys2Proof.Machine
end

section
/-! The packaging of a step invariant: what has to be shown of a predicate for every step to keep it. -/

namespace Sys2Proof.Machine

open Sys2Proof

set_option Elab.async false

/-- Every command is a reset or its end, the end of the strap reading, the begin or end of a transaction, an event, or a service
command. -/
theorem instr_cases (i : Instr) :
    (∃ f, eventWork i = some f) ∨ (∃ w, serviceWork i = some w) ∨ i = .coldReset ∨ (∃ n, i = .warmReset n) ∨ i = .resetEnd ∨
      (∃ l, i = .strapReadingComplete l) ∨ i = .transactionBegin ∨ i = .transactionEnd := by
  cases i
  case coldReset => exact .inr (.inr (.inl rfl))
  case warmReset n => exact .inr (.inr (.inr (.inl ⟨n, rfl⟩)))
  case resetEnd => exact .inr (.inr (.inr (.inr (.inl rfl))))
  case strapReadingComplete l => exact .inr (.inr (.inr (.inr (.inr (.inl ⟨l, rfl⟩)))))
  case transactionBegin => exact .inr (.inr (.inr (.inr (.inr (.inr (.inl rfl))))))
  case transactionEnd => exact .inr (.inr (.inr (.inr (.inr (.inr (.inr rfl))))))
  all_goals first
    | exact .inl ⟨_, rfl⟩
    | exact .inr (.inl ⟨_, rfl⟩)

/-- What each kind of step has to keep for `P` to be a step invariant. `P` does not look at the pins, the port, the counter of free
values or the queue; events and service commands act in a running part alone. -/
structure StepKeeps (P : State → Prop) : Prop where
  outside : ∀ (s : State) (p : Inputs) (r : Port) (n : Nat) (q : List Instr), P s →
    P { s with inputs := p, port := r, free := n, pending := q }
  cold : ∀ s, P s → P (takeColdReset s)
  warm : ∀ s, P s → P (takeWarmReset s)
  resetEnd : ∀ s κ, s.cond = .reset κ → P s → P { s with cond := .strapReading, strapTime := 8000 }
  strapFault : ∀ s l, s.cond = .strapReading → P s →
    P { s with cond := .strapFault, strapTime := 0, straps := l, strapPins := l }
  begins : ∀ s l, s.cond = .strapReading → P s → P (beginBlocks { s with straps := l, strapPins := l })
  event : ∀ i f, eventWork i = some f → ∀ s, s.cond = .running → P s → P (follow (f s))
  service : ∀ i w, serviceWork i = some w → ∀ s, s.cond = .running → P s → P (w s).1
  pass : ∀ s, P s → P (advance s)

namespace StepKeeps

variable {P : State → Prop} (h : StepKeeps P)
include h

/-- Events that act in a running part alone keep what their work and `follow` keep. -/
theorem whenRunning {i : Instr} {f : State → State} (hi : eventWork i = some f) {s : State} (hs : P s) :
    P (whenRunning f s) := by
  by_cases hc : s.cond = .running
  · rw [whenRunning_of_running hc]
    exact h.event i f hi s hc hs
  · rwa [whenRunning_of_not hc]

theorem exec (i : Instr) {s t : State} (hs : P s) (ht : exec i s = .next t) : P t := by
  obtain ⟨f, hf⟩ | ⟨w, hw⟩ | rfl | ⟨n, rfl⟩ | rfl | ⟨l, rfl⟩ | rfl | rfl := instr_cases i
  · rw [exec_of_eventWork hf] at ht
    cases ht
    obtain ⟨p, e⟩ := eventPins_changes i s
    rw [e]
    exact h.whenRunning hf (h.outside s _ _ _ _ hs)
  · obtain ⟨t', e, hcase⟩ := exec_service_cases hw s
    obtain rfl : t' = t := by
      rw [e] at ht
      exact Host.Outcome.next.inj ht
    obtain ⟨r, rfl⟩ | ⟨hc, a, rfl⟩ := hcase
    · exact h.outside s _ _ _ _ hs
    · exact h.outside _ _ _ _ _ (h.service i w hw { s with inputs := s.pinsAfter i } hc (h.outside s _ _ _ _ hs))
  · cases ht
    exact h.cold s hs
  · cases ht
    split
    · exact hs
    · split
      · exact hs
      all_goals exact h.warm s hs
  · cases ht
    split
    · exact h.resetEnd s _ ‹_› hs
    all_goals exact hs
  · cases ht
    split
    · rename_i hc
      dsimp only
      split
      · exact h.strapFault s l hc hs
      · exact h.begins s l hc hs
    all_goals exact hs
  · cases ht
    split
    · exact hs
    all_goals exact h.outside s _ _ _ _ hs
  · cases ht
    exact h.outside s _ _ _ _ hs

/-- A step keeps what every kind of step keeps. -/
theorem step {s t : State} (hs : P s) (ht : step s = .next t) : P t := by
  unfold Machine.step at ht
  split at ht
  · exact h.exec _ (h.outside s _ _ _ _ hs) ht
  · cases ht
    unfold idle
    split
    · exact h.outside s _ _ _ _ hs
    · exact h.pass s hs

end StepKeeps

/-! ### What a service command writes -/

theorem workSelectCable_changes (c : Byte) (s : State) :
    ∃ l' r', (workSelectCable c s).1 = { s with line := l', port := r' } ∧ l'.a = s.line.a ∧ l'.b = s.line.b := by
  simp only [workSelectCable, setActive, abortCheck]
  repeat' split
  all_goals exact ⟨_, _, rfl, rfl, rfl⟩

/-- A service command that writes neither the table, the profiles, the pumps nor the error counters writes the cable check, the
active cable and the port alone. -/
theorem serviceWork_cases {i : Instr} {w : State → State × Answer} (h : serviceWork i = some w) (s : State) :
    i = .readFlagChanges ∨ (∃ k, i = .forgetEntry k) ∨ (∃ ix sp h m, i = .writeStep ix sp h m) ∨
      (∃ k u r d q, i = .writePointers k u r d q) ∨ (∃ k, i = .holdPump k) ∨ (∃ k, i = .releasePump k) ∨
      (∃ k, i = .clearFault k) ∨ (∃ k m, i = .setRunMinutes k m) ∨ i = .clearCounters ∨
      ∃ l' r', (w s).1 = { s with line := l', port := r' } ∧ l'.a = s.line.a ∧ l'.b = s.line.b := by
  cases i <;> cases h
  case readFlagChanges => exact .inl rfl
  case forgetEntry k => exact .inr (.inl ⟨k, rfl⟩)
  case writeStep ix sp h m => exact .inr (.inr (.inl ⟨ix, sp, h, m, rfl⟩))
  case writePointers k u r d q => exact .inr (.inr (.inr (.inl ⟨k, u, r, d, q, rfl⟩)))
  case holdPump k => exact .inr (.inr (.inr (.inr (.inl ⟨k, rfl⟩))))
  case releasePump k => exact .inr (.inr (.inr (.inr (.inr (.inl ⟨k, rfl⟩)))))
  case clearFault k => exact .inr (.inr (.inr (.inr (.inr (.inr (.inl ⟨k, rfl⟩))))))
  case setRunMinutes k m => exact .inr (.inr (.inr (.inr (.inr (.inr (.inr (.inl ⟨k, m, rfl⟩)))))))
  case clearCounters => exact .inr (.inr (.inr (.inr (.inr (.inr (.inr (.inr (.inl rfl))))))))
  all_goals refine .inr (.inr (.inr (.inr (.inr (.inr (.inr (.inr (.inr ?_))))))))
  case selectCable c => exact workSelectCable_changes c s
  case startCheck n =>
    simp only [workStartCheck]
    repeat' split
    all_goals exact ⟨_, _, rfl, rfl, rfl⟩
  case stopCheck =>
    simp only [abortCheck]
    split <;> exact ⟨_, _, rfl, rfl, rfl⟩
  case setAttentionMask m =>
    simp only [workSetAttentionMask]
    split <;> exact ⟨_, _, rfl, rfl, rfl⟩
  case clearAttention m =>
    simp only [workClearAttention]
    split <;> exact ⟨_, _, rfl, rfl, rfl⟩
  all_goals exact ⟨_, _, rfl, rfl, rfl⟩

theorem workWriteStep_changes (ix sp h m : Byte) (s : State) :
    ∃ p', (workWriteStep ix sp h m s).1 = { s with profile := p' } := by
  simp only [workWriteStep]
  repeat' split
  all_goals exact ⟨_, rfl⟩

theorem workWritePointers_changes (k u r d q : Byte) (s : State) :
    ∃ p', (workWritePointers k u r d q s).1 = { s with pointers := p' } := by
  simp only [workWritePointers]
  repeat' split
  all_goals exact ⟨_, rfl⟩

theorem holdPump_changes (k : PumpIx) (s : State) :
    ∃ p' q' d', holdPump k s = { s with pumps := p', players := q', drives := d' } := by
  obtain ⟨_, _, _, h⟩ := demandStop_changes true k (s.setPump k { s.pump k with holdPending := true })
  simp only [holdPump, h]
  split
  all_goals exact ⟨_, _, _, rfl⟩

theorem workHoldPump_changes (k : Byte) (s : State) :
    ∃ a' p' q' d' g', (workHoldPump k s).1 = { s with arb := a', pumps := p', players := q', drives := d', gauge := g' } := by
  simp only [workHoldPump]
  repeat' split
  · exact ⟨_, _, _, _, _, rfl⟩
  · rename_i j _ _
    obtain ⟨_, _, h⟩ := follow_changes (holdPump j s)
    obtain ⟨_, _, _, h'⟩ := holdPump_changes j s
    rw [h, h']
    exact ⟨_, _, _, _, _, rfl⟩
  · exact ⟨_, _, _, _, _, rfl⟩

theorem workReleasePump_changes (k : Byte) (s : State) :
    ∃ p' q' d', (workReleasePump k s).1 = { s with pumps := p', players := q', drives := d' } := by
  simp only [workReleasePump, releasePump]
  repeat' split
  all_goals exact ⟨_, _, _, rfl⟩

theorem workClearFault_changes (k : Byte) (s : State) :
    ∃ p' q' d', (workClearFault k s).1 = { s with pumps := p', players := q', drives := d' } := by
  simp only [workClearFault]
  repeat' split
  all_goals exact ⟨_, _, _, rfl⟩

theorem workSetRunMinutes_changes (k : Byte) (m : BitVec 24) (s : State) :
    ∃ p', (workSetRunMinutes k m s).1 = { s with pumps := p' } := by
  simp only [workSetRunMinutes]
  repeat' split
  all_goals exact ⟨_, rfl⟩

/-- Time passes in these records alone. -/
theorem advance_changes (s : State) :
    ∃ n e m a l p q d g, advance s =
      { s with free := n, strapTime := e, timer := m, arb := a, line := l, pumps := p, players := q, drives := d, gauge := g } := by
  simp only [advance]
  split
  all_goals exact ⟨_, _, _, _, _, _, _, _, _, rfl⟩

end Sys2Proof.Machine
end

section
/-! The round end and the events that can carry one in, for a predicate that does not look at the round timer: what its parts keep,
they keep. -/

namespace Sys2Proof.Machine

open Sys2Proof

set_option Elab.async false

/-- A check failure counts up to 255, on a LOCKED cable alone. -/
theorem CableState.sound_countCheck {x : CableState} (h : x.sound) : x.countCheck.sound := by
  obtain ⟨hp, hc, hu⟩ := h
  unfold CableState.countCheck CableState.sound satAdd
  split
  · rename_i hl
    exact ⟨hp, by simp, fun hn => by simp [hl] at hn⟩
  · exact ⟨hp, hc, hu⟩

/-- An arbiter that differs from another in its window, its records and a dropped start alone. -/
def Arbiter.dropsAtMost (a b : Arbiter) : Prop :=
  b.part = a.part ∧ b.freeWindows = a.freeWindows ∧ b.threshold = a.threshold ∧
    (b.pendingStart = a.pendingStart ∨ b.pendingStart = none)

/-- What the parts of the round end and of reception have to keep. -/
structure RoundKeeps (P : State → Prop) : Prop where
  timer : ∀ (s : State) (m : RoundTimer), P s → P { s with timer := m }
  port : ∀ (s : State) (r : Port), P s → P { s with port := r }
  free : ∀ (s : State) (n : Nat), P s → P { s with free := n }
  arb : ∀ (s : State) (a : Arbiter), P s → s.arb.dropsAtMost a → P { s with arb := a }
  line : ∀ (s : State) (l : Line), P s → l.a = s.line.a → l.b = s.line.b → P { s with line := l }
  cable : ∀ (s : State) (c : Cable) (x : CableState), P s → ((s.line.cable c).sound → x.sound) → P (setCable c x s)
  lineRoundEnd : ∀ s, P s → P (lineRoundEnd s)
  restRoundEnd : ∀ s, P s → P (gaugeRoundEnd (pumpsRoundEnd (stopEnters s (tableRoundEnd s)) (tableRoundEnd s)))
  announcement : ∀ (s : State) (a : Announcement), P s → P (applyAnnouncement a s)
  confirmation : ∀ (s : State) (c : Confirmation), P s → P (applyConfirmation c s)
  starts : ∀ (s : State) (w : Option Word16), s.cond = .running → P s →
    P (takeStart { s with table := { s.table with ownStartSeen := w } })

namespace RoundKeeps

variable {P : State → Prop} (h : RoundKeeps P) {s : State}
include h

theorem timerAndPort {t : State} (ht : ∃ m r, t = { s with timer := m, port := r }) (hs : P s) : P t := by
  obtain ⟨m, r, rfl⟩ := ht
  exact h.timer _ m (h.port s r hs)

theorem roundEndWork (hs : P s) : P (roundEndWork s) :=
  h.free _ _ (h.timerAndPort (timerRoundEnd_changes _) (h.restRoundEnd _ (h.lineRoundEnd s hs)))

theorem skipInstants (lo hi : Nat) (hs : P s) : P (skipInstants lo hi s) := by
  have drop {x : State} (hx : P x) :
      P { x with timer := { x.timer with announceTaken := true }, line := { x.line with handed := none } } :=
    h.timer _ _ (h.line x { x.line with handed := none } hx rfl rfl)
  have mark : P { s with timer := { s.timer with settleTaken := true, windowTaken := true } } := h.timer s _ hs
  simp only [Machine.skipInstants]
  split <;> split
  · exact drop mark
  · exact drop hs
  · exact mark
  · exact hs

theorem realign (k : Station) (c : Word16) (age : Nat) (hs : P s) : P (realign k c age s) := by
  unfold Machine.realign
  extract_lets old oldCount new move s₁ phaseChange countChange
  have h₁ : P s₁ := by
    unfold s₁
    split
    · split
      · exact h.skipInstants _ _ (h.roundEndWork (h.skipInstants _ _ hs))
      · exact h.skipInstants _ _ hs
    · exact hs
  exact h.timer _ _ h₁

theorem realignOrHold (k : Station) (c : Word16) (age : Nat) (hs : P s) : P (realignOrHold k c age s) := by
  unfold Machine.realignOrHold
  split
  · split
    · exact h.timer _ _ hs
    · exact h.realign k c age hs
  · exact h.realign k c age hs

theorem releaseRealignment (hs : P s) : P (releaseRealignment s) := by
  unfold Machine.releaseRealignment
  extract_lets window _ s₁
  have h₁ : P s₁ := h.arb s _ hs ⟨rfl, rfl, rfl, .inl rfl⟩
  split
  · exact h.timer _ _ (h.realign _ _ _ (h.timer s₁ _ h₁))
  · exact h₁

theorem goSilent (hs : P s) : P (goSilent s) := by
  unfold Machine.goSilent
  split
  · exact hs
  · extract_lets _ s₁ _ s₂
    have h₁ : P s₁ := h.line s _ hs rfl rfl
    have h₂ : P s₂ := by
      unfold s₂
      split
      · exact h.arb s₁ _ h₁ ⟨rfl, rfl, rfl, .inr rfl⟩
      · exact h₁
    exact h.timerAndPort (setMode_changes _ _) h₂

theorem countReadBackFailure (hs : P s) : P (countReadBackFailure s) := by
  unfold Machine.countReadBackFailure
  split
  · exact hs
  · dsimp only
    split
    · exact h.goSilent (h.timer _ _ hs)
    · exact h.timer _ _ hs

theorem failReadBack (t : Transmission) (hs : P s) : P (failReadBack t s) := by
  have hc : P (Machine.countReadBackFailure { s with line := { s.line with tx := none } }) :=
    h.countReadBackFailure (h.line s _ hs rfl rfl)
  unfold Machine.failReadBack
  split
  · exact hc
  · exact h.releaseRealignment (h.arb _ _ hc ⟨rfl, rfl, rfl, .inr rfl⟩)

theorem acceptAnnouncement (a : Announcement) (age : Nat) (hs : P s) : P (acceptAnnouncement a age s) := by
  unfold Machine.acceptAnnouncement
  extract_lets first s₁ s₂ s₃
  have h₁ : P s₁ := h.timer _ _ (h.announcement s a hs)
  have h₂ : P s₂ := by
    unfold s₂
    split
    · exact h.realignOrHold _ _ _ h₁
    · exact h₁
  exact h.timer _ _ (h.timerAndPort (alignMode_changes _ _) h₂)

theorem duplicateHeard (hs : P s) : P (duplicateHeard s) := by
  unfold Machine.duplicateHeard
  split
  · exact h.goSilent hs
  · exact hs

theorem offerFrame (x : Assembly) (hs : P s) : P (offerFrame x s) := by
  unfold Machine.offerFrame
  split
  · unfold offerAnnouncement
    dsimp only
    repeat' split
    · exact h.duplicateHeard hs
    · exact hs
    · exact hs
    · exact h.acceptAnnouncement _ _ hs
  · unfold offerConfirmation
    extract_lets c s₁ record window _ s₂
    have h₂ : P s₂ := h.arb s₁ _ (h.confirmation s c hs) ⟨rfl, rfl, rfl, .inl rfl⟩
    split
    · exact h.duplicateHeard h₂
    · exact h₂

/-- The cable check keeps what no line field but the cables can break. -/
theorem checkActiveFrame (cs : List Byte) (hs : P s) : P (checkActiveFrame cs s) := by
  rw [checkActiveFrame_eq]
  exact h.line s _ hs rfl rfl

theorem checkStandbyFrame (f : Option (List Byte)) (hs : P s) : P (checkStandbyFrame f s) := by
  unfold Machine.checkStandbyFrame
  dsimp only
  split
  · exact h.line s _ hs rfl rfl
  · exact hs

theorem failedArrival (c : Cable) (hs : P s) : P (failedArrival c s) := by
  unfold Machine.failedArrival
  split
  · exact hs
  · exact h.checkStandbyFrame _ hs

theorem validArrival (c : Cable) (x : Assembly) (hs : P s) : P (validArrival c x s) := by
  have mark {u : State} (hu : P u) : P (setCable c { u.line.cable c with frameMark := true } u) := h.cable u c _ hu id
  unfold Machine.validArrival
  by_cases ha : s.line.active = c
  · simp only [ha, decide_true, if_true]
    exact h.checkActiveFrame _ (mark (h.offerFrame x hs))
  · simp only [ha, decide_false, Bool.false_eq_true, if_false]
    exact h.checkStandbyFrame _ (mark hs)

theorem arriveFrame (c : Cable) (hs : P s) : P (arriveFrame c s) := by
  unfold Machine.arriveFrame
  split
  · exact hs
  · split
    · have h₁ := h.cable s c { s.line.cable c with assembly := none } hs id
      unfold judgeFrame
      repeat' split
      · exact h.failedArrival c h₁
      · exact h.validArrival c _ h₁
      · exact h.failedArrival c (h.cable _ c _ h₁ CableState.sound_countCheck)
    · exact hs

theorem finishTransmission (t : Transmission) (hs : P s) : P (finishTransmission t s) := by
  have h₁ : P (checkOwnFrame t { s with line := { s.line with tx := none } }) := by
    unfold checkOwnFrame
    have h₀ := h.checkActiveFrame t.chars (h.line s { s.line with tx := none } hs rfl rfl)
    dsimp only
    split
    · exact h.checkStandbyFrame _ h₀
    · exact h₀
  unfold Machine.finishTransmission
  dsimp only
  split
  · exact h₁
  · exact h.arb _ _ h₁ ⟨rfl, rfl, rfl, .inl rfl⟩

theorem takeOrDropStart (hc : s.cond = .running) (hs : P s) : P (takeOrDropStart s) := by
  unfold Machine.takeOrDropStart
  have h₁ : P (finishConfirmation s) := by
    unfold finishConfirmation
    split
    · split
      · exact h.finishTransmission _ hs
      · exact hs
    · exact hs
  have hc₁ : (finishConfirmation s).cond = .running := by
    obtain ⟨_, _, e⟩ := finishConfirmation_changes s
    rw [e]
    exact hc
  dsimp only
  split
  · exact h.releaseRealignment (h.arb _ _ (h.starts _ _ hc₁ h₁) ⟨rfl, rfl, rfl, .inr rfl⟩)
  · exact h₁

theorem beginTransmission (kind : FrameKind) (cs : List Byte) (hs : P s) : P (beginTransmission kind cs s) := by
  have ha : P (setCable .a s.line.a.hold s) := h.cable s .a _ hs id
  have hb : P (setCable .b s.line.b.hold (setCable .a s.line.a.hold s)) := h.cable _ .b _ ha id
  exact h.line _ _ hb rfl rfl

/-- What the parts keep, the round end and every event that can carry one in keep. -/
theorem event {i : Instr} {f : State → State} (hi : roundWork i = some f) (hc : s.cond = .running) (hs : P s) : P (f s) := by
  cases i <;> cases hi
  case roundEnd => exact h.timer _ _ (h.roundEndWork hs)
  case confirmationBegin =>
    unfold beginConfirmation
    repeat' split
    · exact hs
    · exact h.releaseRealignment hs
    · exact h.beginTransmission _ _ hs
    · exact h.releaseRealignment hs
  case startTakenOrDropped => exact h.takeOrDropStart hc hs
  case characterReadBack =>
    unfold readBackCharacter
    split
    · exact hs
    · split
      · exact hs
      · dsimp only
        split
        · exact h.line s _ hs rfl rfl
        · exact h.failReadBack _ hs
  case foreignEdgeOnFrame =>
    unfold foreignEdge
    split
    · exact h.failReadBack _ hs
    · exact hs
  case frameArrival c _ => exact h.arriveFrame c hs

end RoundKeeps

end Sys2Proof.Machine
end

section
/-! The district table stays sound (R1, R2, R13, R20). -/

namespace Sys2Proof.Machine

open Sys2Proof

set_option Elab.async false

theorem Entry.sound_blank : Entry.blank.sound := .inl rfl

/-- The status that an age gives (R2). -/
theorem statusOfAge_cases {age : Nat} (h : age ≤ 255) :
    (age ≤ 1 ∧ statusOfAge age = .fresh) ∨ (2 ≤ age ∧ age ≤ 7 ∧ statusOfAge age = .stale) ∨
      (8 ≤ age ∧ age ≤ 255 ∧ statusOfAge age = .lost) := by
  unfold statusOfAge
  by_cases h₁ : age ≤ 1
  · exact .inl ⟨h₁, if_pos h₁⟩
  · by_cases h₇ : age ≤ 7
    · exact .inr (.inl ⟨by omega, h₇, by rw [if_neg h₁, if_pos h₇]⟩)
    · exact .inr (.inr ⟨by omega, h, by rw [if_neg h₁, if_neg h₇]⟩)

/-- Ageing leaves an EMPTY entry alone and gives any other the status of its new age (R13). -/
theorem Entry.sound_aged {e : Entry} (h : e.sound) : e.aged.sound := by
  obtain rfl | ⟨hf, hs⟩ := h
  · exact .inl rfl
  · have hne : e.status ≠ .empty := by
      rcases hs with ⟨_, h⟩ | ⟨_, _, h⟩ | ⟨_, _, h⟩ <;> simp [h]
    unfold Entry.aged
    rw [if_neg hne]
    exact .inr ⟨hf, statusOfAge_cases (by simp [satAdd])⟩

/-- A confirmation keeps the age of an entry that has one, and makes a FRESH one of an EMPTY one (R11, R12). -/
theorem Entry.sound_confirm {e : Entry} (rating : Nat) (round : Word16) (h : e.sound) : (e.confirm rating round).sound := by
  obtain rfl | ⟨hf, hs⟩ := h
  · exact .inr ⟨rfl, .inl ⟨Nat.zero_le _, rfl⟩⟩
  · obtain ⟨f, hf⟩ := Option.isSome_iff_exists.mp hf
    unfold Entry.confirm
    rw [hf]
    exact .inr ⟨rfl, hs⟩

/-- A FRESH entry of age 0 with fields is sound (R8). -/
theorem Entry.sound_fresh (f : EntryFields) (w c : Option Word16) :
    Entry.sound { status := .fresh, age := 0, fields := some f, startSeen := w, lastCount := c } :=
  .inr ⟨rfl, .inl ⟨Nat.zero_le _, rfl⟩⟩

theorem State.tableSound_setEntry {s : State} (k : Station) {e : Entry} (h : s.tableSound) (he : e.sound) :
    (s.setEntry k e).tableSound := by
  refine ⟨fun j => ?_, h.2⟩
  rw [State.entries_setEntry]
  by_cases hj : k.val = j.val
  · simpa [hj] using he
  · simpa [hj] using h.1 j

theorem length_pushRecord_le (r : FlagRecord) (q : List FlagRecord) : (pushRecord r q).length ≤ 2 := by
  cases q <;> simp [pushRecord]

theorem tableSound_tableRoundEnd {s : State} (h : s.tableSound) : (tableRoundEnd s).tableSound := by
  have aged (k : Station) : ((ageEntries s.table.entries)[k]).sound := by
    rw [ageEntries_getElem]
    exact Entry.sound_aged (h.1 k)
  unfold tableRoundEnd
  dsimp only
  split
  · exact ⟨aged, length_pushRecord_le _ _⟩
  · exact ⟨aged, h.2⟩

theorem tableSound_reset : State.reset.tableSound := by
  refine ⟨fun k => ?_, by decide⟩
  simpa [State.reset, Table.reset] using Entry.sound_blank

theorem tableSound_roundKeeps : RoundKeeps State.tableSound where
  timer _ _ h := h
  port _ _ h := h
  free _ _ h := h
  arb _ _ h _ := h
  line _ _ h _ _ := h
  cable s c x h _ := by
    unfold State.tableSound
    rwa [setCable_table]
  lineRoundEnd s h := by
    obtain ⟨_, _, e⟩ := lineRoundEnd_changes s
    rw [e]
    exact h
  restRoundEnd s h := by
    obtain ⟨_, e₁⟩ := gaugeRoundEnd_changes (pumpsRoundEnd (stopEnters s (tableRoundEnd s)) (tableRoundEnd s))
    obtain ⟨_, _, _, _, e₂⟩ := pumpsRoundEnd_changes (stopEnters s (tableRoundEnd s)) (tableRoundEnd s)
    rw [e₁, e₂]
    exact tableSound_tableRoundEnd h
  announcement s a h := State.tableSound_setEntry a.station h (Entry.sound_fresh _ _ _)
  confirmation s c h := by
    unfold applyConfirmation
    split
    · exact h
    · exact State.tableSound_setEntry c.station h (Entry.sound_confirm _ _ (h.1 c.station))
  starts s w _ h := by
    obtain ⟨_, _, _, e⟩ := takeStart_changes { s with table := { s.table with ownStartSeen := w } }
    rw [e]
    exact h

/-- A service command writes the table in two places alone: it empties the flag change queue, or a LOST entry. -/
theorem tableSound_service {i : Instr} {w : State → State × Answer} (hi : serviceWork i = some w) {s : State}
    (h : s.tableSound) : (w s).1.tableSound := by
  obtain rfl | ⟨k, rfl⟩ | ⟨ix, sp, hd, m, rfl⟩ | ⟨k, u, r, d, q, rfl⟩ | ⟨k, rfl⟩ | ⟨k, rfl⟩ | ⟨k, rfl⟩ | ⟨k, m, rfl⟩ | rfl |
    ⟨_, _, e, _, _⟩ := serviceWork_cases hi s
  case inr.inr.inr.inr.inr.inr.inr.inr.inr =>
    rw [e]
    exact h
  all_goals cases hi
  · exact ⟨h.1, Nat.zero_le 2⟩
  · unfold workForgetEntry
    repeat' split
    · exact State.tableSound_setEntry _ h Entry.sound_blank
    · exact h
    · exact h
  · obtain ⟨_, e⟩ := workWriteStep_changes ix sp hd m s
    rw [e]
    exact h
  · obtain ⟨_, e⟩ := workWritePointers_changes k u r d q s
    rw [e]
    exact h
  · obtain ⟨_, _, _, _, _, e⟩ := workHoldPump_changes k s
    rw [e]
    exact h
  · obtain ⟨_, _, _, e⟩ := workReleasePump_changes k s
    rw [e]
    exact h
  · obtain ⟨_, _, _, e⟩ := workClearFault_changes k s
    rw [e]
    exact h
  · obtain ⟨_, e⟩ := workSetRunMinutes_changes k m s
    rw [e]
    exact h
  · exact h

theorem tableSound_stepKeeps : StepKeeps State.tableSound where
  outside _ _ _ _ _ h := h
  cold _ _ := tableSound_reset
  warm _ _ := tableSound_reset
  resetEnd _ _ _ h := h
  strapFault _ _ _ h := h
  begins _ _ _ h := h
  event i f hi s hc h := by
    unfold State.tableSound
    rw [follow_table]
    obtain hl | hp | hr := eventWork_cases hi
    · obtain ⟨_, _, _, _, e⟩ := lineWork_changes hl s
      rw [e]
      exact h
    · obtain ⟨_, _, _, _, _, _, _, e⟩ := pumpWork_changes hp s
      rw [e]
      exact h
    · exact tableSound_roundKeeps.event hr hc h
  service i w hi s _ h := tableSound_service hi h
  pass s h := by
    obtain ⟨_, _, _, _, _, _, _, _, _, e⟩ := advance_changes s
    rw [e]
    exact h

/-- Settles O55: only the round end, a frame of another station, a confirmation, READ FLAG CHANGES, FORGET ENTRY and a reset write
the table, and each leaves it sound. -/
theorem everyStepKeepsTheTableSound : Obligations.EveryStepKeepsTheTableSound :=
  fun _ _ hs ht => tableSound_stepKeeps.step hs ht

end Sys2Proof.Machine
end

section
/-! The error counters, the arbiter and the allocation unit stay sound (R43, R46, R63, R145, R146). -/

namespace Sys2Proof.Machine

open Sys2Proof

set_option Elab.async false

/-! ### The cables -/

namespace CableState

variable {x : CableState}

theorem sound_countParity (h : x.sound) : x.countParity.sound := by
  obtain ⟨hp, hc, hu⟩ := h
  unfold countParity sound satAdd
  split
  · rename_i hl
    exact ⟨by simp, hc, fun hn => by simp [hl] at hn⟩
  · exact ⟨hp, hc, hu⟩

theorem sound_truncated (h : x.sound) : x.truncated.sound := by
  unfold truncated
  split
  · exact h
  · dsimp only
    split
    · exact h
    · exact sound_countCheck h

/-- A lock machine that comes to UNLOCKED clears the counters; one that comes to LOCKED had them clear (R145, R146). -/
theorem sound_roundEnd (h : x.sound) : x.roundEnd.sound := by
  obtain ⟨hp, hc, hu⟩ := h
  unfold roundEnd
  split
  · rename_i hl
    obtain ⟨hp₀, hc₀⟩ := hu hl
    exact ⟨hp, hc, fun _ => ⟨hp₀, hc₀⟩⟩
  · exact ⟨hp, hc, hu⟩
  · split
    · exact ⟨Nat.zero_le _, Nat.zero_le _, fun _ => ⟨rfl, rfl⟩⟩
    · exact ⟨hp, hc, hu⟩
  · exact ⟨hp, hc, hu⟩

end CableState

theorem cablesSound_cable {s : State} (h : s.cablesSound) (c : Cable) : (s.line.cable c).sound := by
  cases c
  · exact h.1
  · exact h.2

theorem cablesSound_setCable {s : State} {c : Cable} {x : CableState} (h : s.cablesSound) (hx : x.sound) :
    (setCable c x s).cablesSound := by
  cases c
  · exact ⟨hx, h.2⟩
  · exact ⟨h.1, hx⟩

/-- Only the two cables count. -/
theorem cablesSound_of_eq {s t : State} (h : s.cablesSound) (ha : t.line.a = s.line.a) (hb : t.line.b = s.line.b) :
    t.cablesSound := by
  unfold State.cablesSound
  rwa [ha, hb]

theorem checkRoundEnd_cables (s : State) :
    (checkRoundEnd s).line.a = s.line.a ∧ (checkRoundEnd s).line.b = s.line.b := by
  simp only [checkRoundEnd]
  repeat' split
  all_goals exact ⟨rfl, rfl⟩

theorem switchTest_cables (s : State) : (switchTest s).line.a = s.line.a ∧ (switchTest s).line.b = s.line.b := by
  simp only [switchTest, setActive, abortCheck]
  repeat' split
  all_goals exact ⟨rfl, rfl⟩

/-- The round end steps the lock machine of each cable and changes no cable else. -/
theorem lineRoundEnd_cables (s : State) :
    (lineRoundEnd s).line.a = s.line.a.roundEnd ∧ (lineRoundEnd s).line.b = s.line.b.roundEnd := by
  obtain ⟨ha, hb⟩ := checkRoundEnd_cables s
  unfold lineRoundEnd
  dsimp only
  rw [(switchTest_cables _).1, (switchTest_cables _).2, ha, hb]
  exact ⟨rfl, rfl⟩

theorem cablesSound_roundKeeps : RoundKeeps State.cablesSound where
  timer _ _ h := h
  port _ _ h := h
  free _ _ h := h
  arb _ _ h _ := h
  line _ _ h ha hb := cablesSound_of_eq h ha hb
  cable _ c _ h hx := cablesSound_setCable h (hx (cablesSound_cable h c))
  lineRoundEnd s h := by
    unfold State.cablesSound
    rw [(lineRoundEnd_cables s).1, (lineRoundEnd_cables s).2]
    exact ⟨CableState.sound_roundEnd h.1, CableState.sound_roundEnd h.2⟩
  restRoundEnd s h := by
    obtain ⟨_, e₁⟩ := gaugeRoundEnd_changes (pumpsRoundEnd (stopEnters s (tableRoundEnd s)) (tableRoundEnd s))
    obtain ⟨_, _, _, _, e₂⟩ := pumpsRoundEnd_changes (stopEnters s (tableRoundEnd s)) (tableRoundEnd s)
    obtain ⟨_, _, e₃⟩ := tableRoundEnd_changes s
    rw [e₁, e₂, e₃]
    exact h
  announcement _ _ h := h
  confirmation s c h := by
    obtain ⟨_, e⟩ := applyConfirmation_changes c s
    rw [e]
    exact h
  starts s w _ h := by
    obtain ⟨_, _, _, e⟩ := takeStart_changes { s with table := { s.table with ownStartSeen := w } }
    rw [e]
    exact h

theorem cablesSound_receiveCharacter {s : State} (c : Cable) (r : Readings) (h : s.cablesSound) :
    (receiveCharacter c r s).cablesSound := by
  unfold receiveCharacter
  dsimp only
  split
  · exact h
  · split
    · exact h
    · rename_i v parityFault stopFault _
      have hx : (if (s.line.cable c).overdue = true then (s.line.cable c).truncated else s.line.cable c).sound := by
        split
        · exact CableState.sound_truncated (cablesSound_cable h c)
        · exact cablesSound_cable h c
      generalize (if (s.line.cable c).overdue = true then (s.line.cable c).truncated else s.line.cable c) = x at hx ⊢
      refine cablesSound_setCable h ?_
      have hy : (if (parityFault || stopFault) = true then x.countParity else x).sound := by
        split
        · exact CableState.sound_countParity hx
        · exact hx
      exact hy

theorem cablesSound_lineWork {i : Instr} {f : State → State} (hi : lineWork i = some f) {s : State} (h : s.cablesSound) :
    (f s).cablesSound := by
  cases i <;> cases hi
  case windowOpening =>
    unfold openWindow
    split
    · exact h
    · exact ⟨h.1, h.2⟩
  case announcementTransmitBegin =>
    unfold beginAnnouncement
    split
    · exact cablesSound_roundKeeps.beginTransmission _ _ h
    · exact h
  case transmissionEnd =>
    unfold endTransmission
    repeat' split
    · exact cablesSound_roundKeeps.finishTransmission _ h
    · exact h
    · exact h
  case characterComplete c r => exact cablesSound_receiveCharacter c r h
  case frameTruncated c => exact cablesSound_setCable h (CableState.sound_truncated (cablesSound_cable h c))
  case decoderInputReleased c =>
    unfold releaseDecoder
    split
    · exact h
    · exact cablesSound_setCable h (cablesSound_cable h c)
  all_goals
    simp only [readArbitrationBit, endLastBit, endWindow, composeAnnouncement, timeOutComparison, endPulse, seeDrivenLevel,
      markNotFree]
    repeat' split
    all_goals exact h

theorem cablesSound_service {i : Instr} {w : State → State × Answer} (hi : serviceWork i = some w) {s : State}
    (h : s.cablesSound) : (w s).1.cablesSound := by
  obtain rfl | ⟨k, rfl⟩ | ⟨ix, sp, hd, m, rfl⟩ | ⟨k, u, r, d, q, rfl⟩ | ⟨k, rfl⟩ | ⟨k, rfl⟩ | ⟨k, rfl⟩ | ⟨k, m, rfl⟩ | rfl |
    ⟨_, _, e, ha, hb⟩ := serviceWork_cases hi s
  case inr.inr.inr.inr.inr.inr.inr.inr.inr =>
    rw [e]
    exact cablesSound_of_eq h ha hb
  all_goals cases hi
  · exact h
  · unfold workForgetEntry
    repeat' split
    all_goals exact h
  · obtain ⟨_, e⟩ := workWriteStep_changes ix sp hd m s
    rw [e]
    exact h
  · obtain ⟨_, e⟩ := workWritePointers_changes k u r d q s
    rw [e]
    exact h
  · obtain ⟨_, _, _, _, _, e⟩ := workHoldPump_changes k s
    rw [e]
    exact h
  · obtain ⟨_, _, _, e⟩ := workReleasePump_changes k s
    rw [e]
    exact h
  · obtain ⟨_, _, _, e⟩ := workClearFault_changes k s
    rw [e]
    exact h
  · obtain ⟨_, e⟩ := workSetRunMinutes_changes k m s
    rw [e]
    exact h
  · exact ⟨⟨Nat.zero_le _, Nat.zero_le _, fun _ => ⟨rfl, rfl⟩⟩, ⟨Nat.zero_le _, Nat.zero_le _, fun _ => ⟨rfl, rfl⟩⟩⟩

theorem cablesSound_reset : State.reset.cablesSound := by
  unfold State.cablesSound CableState.sound
  decide

theorem cablesSound_stepKeeps : StepKeeps State.cablesSound where
  outside _ _ _ _ _ h := h
  cold _ _ := cablesSound_reset
  warm _ _ := cablesSound_reset
  resetEnd _ _ _ h := h
  strapFault _ _ _ h := h
  begins _ _ _ h := h
  event i f hi s hc h := by
    unfold State.cablesSound
    rw [follow_line]
    obtain hl | hp | hr := eventWork_cases hi
    · exact cablesSound_lineWork hl h
    · obtain ⟨_, _, _, _, _, _, _, e⟩ := pumpWork_changes hp s
      rw [e]
      exact h
    · exact cablesSound_roundKeeps.event hr hc h
  service i w hi s _ h := cablesSound_service hi h
  pass s h := by
    unfold advance
    dsimp only
    split
    all_goals exact h

/-! ### The arbiter and the allocation unit -/

/-- A start is dropped and nothing else of a window changes. -/
theorem arbiterSound_of_dropsAtMost {s : State} {a : Arbiter} (h : s.arbiterSound) (ha : s.arb.dropsAtMost a) :
    State.arbiterSound { s with arb := a } := by
  obtain ⟨hp, hf, h₁, h₅, hq⟩ := h
  obtain ⟨e₁, e₂, e₃, e₄⟩ := ha
  unfold State.arbiterSound
  dsimp only
  rw [e₁, e₂, e₃]
  refine ⟨fun hpart => ?_, hf, h₁, h₅, hq⟩
  rcases e₄ with e₄ | e₄
  · rw [e₄]
    exact hp hpart
  · exact e₄

/-- Only the arbiter and the allocation unit count. -/
theorem arbiterSound_of_eq {s t : State} (h : s.arbiterSound) (ha : t.arb = s.arb) (hc : t.alloc = s.alloc) :
    t.arbiterSound := by
  unfold State.arbiterSound
  rwa [ha, hc]

theorem arbiterSound_follow {s : State} (h : s.arbiterSound) : (follow s).arbiterSound := by
  have ⟨_, hrest⟩ := h
  have ha : (follow s).alloc = s.alloc := follow_alloc s
  by_cases hw : s.arb.part = .contending ∧ s.pendingValid = false
  · unfold State.arbiterSound
    rw [follow_arb, if_pos hw, ha]
    exact ⟨fun _ => rfl, hrest⟩
  · exact arbiterSound_of_eq h (by rw [follow_arb, if_neg hw]) ha

theorem arbiterSound_roundKeeps : RoundKeeps State.arbiterSound where
  timer _ _ h := h
  port _ _ h := h
  free _ _ h := h
  arb _ _ h ha := arbiterSound_of_dropsAtMost h ha
  line _ _ h _ _ := h
  cable s c x h _ := arbiterSound_of_eq h (setCable_arb c x s) (setCable_alloc c x s)
  lineRoundEnd s h := by
    obtain ⟨_, _, e⟩ := lineRoundEnd_changes s
    rw [e]
    exact h
  restRoundEnd s h := by
    obtain ⟨_, e₁⟩ := gaugeRoundEnd_changes (pumpsRoundEnd (stopEnters s (tableRoundEnd s)) (tableRoundEnd s))
    obtain ⟨_, _, _, _, e₂⟩ := pumpsRoundEnd_changes (stopEnters s (tableRoundEnd s)) (tableRoundEnd s)
    obtain ⟨_, _, e₃⟩ := tableRoundEnd_changes s
    rw [e₁, e₂, e₃]
    exact h
  announcement _ _ h := h
  confirmation s c h := by
    obtain ⟨_, e⟩ := applyConfirmation_changes c s
    rw [e]
    exact h
  starts s w _ h := by
    obtain ⟨_, _, _, e⟩ := takeStart_changes { s with table := { s.table with ownStartSeen := w } }
    rw [e]
    exact h

theorem windowThreshold_bounds (flood : Bool) (u : Nat) (last : LastResult) :
    1 ≤ windowThreshold flood u last ∧ windowThreshold flood u last ≤ 5 := by
  unfold windowThreshold
  repeat' split
  all_goals omega

/-- A window opens with a pending start where the station contends, and with none where it stays OUT (R67). -/
theorem arbiterSound_openWindow {s : State} (h : s.arbiterSound) : (openWindow s).arbiterSound := by
  have ⟨_, hf, _, _, hq⟩ := h
  unfold openWindow
  split
  · exact h
  · refine ⟨fun hpart => ?_, hf, (windowThreshold_bounds _ _ _).1, (windowThreshold_bounds _ _ _).2, hq⟩
    dsimp only at hpart ⊢
    cases hk : s.contendsWith (windowThreshold s.gauge.flood s.urgency s.arb.lastResult) with
    | none => rfl
    | some k => simp [hk] at hpart

theorem arbiterSound_readArbitrationBit {s : State} (d : DrivenLevels) (h : s.arbiterSound) :
    (readArbitrationBit d s).arbiterSound := by
  obtain ⟨hp, hrest⟩ := h
  unfold readArbitrationBit
  split
  · exact ⟨hp, hrest⟩
  · split
    · dsimp only
      split
      · unfold Arbiter.readBit
        split
        · exact ⟨fun _ => rfl, hrest⟩
        · exact ⟨fun _ => rfl, hrest⟩
        · exact ⟨hp, hrest⟩
        · exact ⟨hp, hrest⟩
      · exact ⟨hp, hrest⟩
    · exact ⟨hp, hrest⟩

theorem arbiterSound_endLastBit {s : State} (h : s.arbiterSound) : (endLastBit s).arbiterSound := by
  obtain ⟨hp, hrest⟩ := h
  unfold endLastBit
  split
  · dsimp only
    split
    · exact ⟨fun hpart => by simp at hpart, hrest⟩
    · exact ⟨hp, hrest⟩
  · exact ⟨hp, hrest⟩

theorem arbiterSound_endWindow {s : State} (h : s.arbiterSound) : (endWindow s).arbiterSound := by
  obtain ⟨hp, hf, hrest⟩ := h
  unfold endWindow
  split
  · exact ⟨hp, hf, hrest⟩
  · refine ⟨fun _ => rfl, ?_, hrest⟩
    dsimp only
    split
    · exact Nat.zero_le _
    · simp [satAdd]

theorem arbiterSound_lineWork {i : Instr} {f : State → State} (hi : lineWork i = some f) {s : State} (h : s.arbiterSound) :
    (f s).arbiterSound := by
  cases i <;> cases hi
  case windowOpening => exact arbiterSound_openWindow h
  case arbitrationBitReading d => exact arbiterSound_readArbitrationBit d h
  case lastBitEnd => exact arbiterSound_endLastBit h
  case windowEnd => exact arbiterSound_endWindow h
  case transmissionEnd =>
    unfold endTransmission
    repeat' split
    · exact arbiterSound_roundKeeps.finishTransmission _ h
    · exact h
    · exact h
  case characterComplete c r =>
    obtain ⟨_, e⟩ := receiveCharacter_changes c r s
    rw [e]
    exact h
  case frameTruncated c => exact arbiterSound_of_eq h (setCable_arb _ _ _) (setCable_alloc _ _ _)
  case decoderInputReleased c =>
    unfold releaseDecoder
    split
    · exact h
    · exact arbiterSound_of_eq h (setCable_arb _ _ _) (setCable_alloc _ _ _)
  all_goals
    simp only [composeAnnouncement, beginAnnouncement, beginTransmission, holdDecoders, timeOutComparison, endPulse,
      seeDrivenLevel, markNotFree]
    repeat' split
    all_goals exact h

/-- The held quota of a settle point is none only where it was, and its age then grows (R46). -/
theorem baseQuota_sound {offer held : Option Nat} {age fallback : Nat} (h : held = none → 240 ≤ age) :
    (baseQuota offer held age fallback).2.2 ≤ 255 ∧
      ((baseQuota offer held age fallback).2.1 = none → 240 ≤ (baseQuota offer held age fallback).2.2) := by
  cases offer with
  | some q => exact ⟨Nat.zero_le _, fun hn => by simp [baseQuota] at hn⟩
  | none =>
    refine ⟨by simp [baseQuota, satAdd], fun hn => ?_⟩
    have := h hn
    simp only [baseQuota, satAdd]
    omega

theorem arbiterSound_settlePoint {s : State} (h : s.arbiterSound) : (takeSettlePoint s).arbiterSound := by
  obtain ⟨hp, hf, h₁, h₅, ha, hq⟩ := h
  unfold takeSettlePoint
  split
  · exact ⟨hp, hf, h₁, h₅, ha, hq⟩
  · obtain ⟨_, _, e⟩ := settleWork_alloc { s with timer := { s.timer with settleTaken := true } }
    obtain ⟨_, _, _, _, e'⟩ := settleWork_changes { s with timer := { s.timer with settleTaken := true } }
    have harb : (settleWork { s with timer := { s.timer with settleTaken := true } }).arb = s.arb := by rw [e']
    unfold State.arbiterSound
    rw [harb, e]
    exact ⟨hp, hf, h₁, h₅, baseQuota_sound hq⟩

theorem arbiterSound_service {i : Instr} {w : State → State × Answer} (hi : serviceWork i = some w) {s : State}
    (h : s.arbiterSound) : (w s).1.arbiterSound := by
  obtain rfl | ⟨k, rfl⟩ | ⟨ix, sp, hd, m, rfl⟩ | ⟨k, u, r, d, q, rfl⟩ | ⟨k, rfl⟩ | ⟨k, rfl⟩ | ⟨k, rfl⟩ | ⟨k, m, rfl⟩ | rfl |
    ⟨_, _, e, _, _⟩ := serviceWork_cases hi s
  case inr.inr.inr.inr.inr.inr.inr.inr.inr =>
    rw [e]
    exact h
  all_goals cases hi
  · exact h
  · unfold workForgetEntry
    repeat' split
    all_goals exact h
  · obtain ⟨_, e⟩ := workWriteStep_changes ix sp hd m s
    rw [e]
    exact h
  · obtain ⟨_, e⟩ := workWritePointers_changes k u r d q s
    rw [e]
    exact h
  · unfold workHoldPump
    repeat' split
    · exact h
    · rename_i j _ _
      obtain ⟨_, _, _, e⟩ := holdPump_changes j s
      exact arbiterSound_follow (by rw [e]; exact h)
    · exact h
  · obtain ⟨_, _, _, e⟩ := workReleasePump_changes k s
    rw [e]
    exact h
  · obtain ⟨_, _, _, e⟩ := workClearFault_changes k s
    rw [e]
    exact h
  · obtain ⟨_, e⟩ := workSetRunMinutes_changes k m s
    rw [e]
    exact h
  · exact h

theorem arbiterSound_reset : State.reset.arbiterSound := by
  unfold State.arbiterSound
  decide

theorem arbiterSound_stepKeeps : StepKeeps State.arbiterSound where
  outside _ _ _ _ _ h := h
  cold _ _ := arbiterSound_reset
  warm _ _ := arbiterSound_reset
  resetEnd _ _ _ h := h
  strapFault _ _ _ h := h
  begins _ _ _ h := h
  event i f hi s hc h := by
    refine arbiterSound_follow ?_
    obtain hl | hp | hr := eventWork_cases hi
    · exact arbiterSound_lineWork hl h
    · obtain rfl | ⟨g, p, r, rfl⟩ | ⟨_, _, _, _, e⟩ := pumpWork_cases hp s
      · cases hp
        exact arbiterSound_settlePoint h
      · cases hp
        obtain ⟨_, _, _, _, _, e⟩ := endCountingWindow_changes g p r s
        rw [e]
        exact h
      · rw [e]
        exact h
    · exact arbiterSound_roundKeeps.event hr hc h
  service i w hi s _ h := arbiterSound_service hi h
  pass s h := by
    unfold advance
    dsimp only
    split
    all_goals exact h

/-- Settles O58: the counters and the counts are kept apart; each event that writes them keeps them in range. -/
theorem everyStepKeepsCountersAndArbiterSound : Obligations.EveryStepKeepsCountersAndArbiterSound :=
  ⟨fun _ _ hs ht => cablesSound_stepKeeps.step hs ht, fun _ _ hs ht => arbiterSound_stepKeeps.step hs ht⟩

end Sys2Proof.Machine
end

section
/-! The stop laws (R19, R103). What the controllers do to a pump makes it no more active than it was, but for a start, which asks
that no law stands against it. -/

namespace Sys2Proof.Machine

open Sys2Proof

set_option Elab.async false

theorem State.districtStopHolds_iff (s : State) :
    s.districtStopHolds ↔ (districtStop s.table.accepted = true → ∀ k, (s.pump k).state.active = false) := by
  unfold State.districtStopHolds districtStop
  refine imp_congr_right fun _ => forall_congr' fun k => ?_
  cases (s.pump k).state <;> simp [PumpState.active]

theorem State.lowSumpHolds_iff (s : State) :
    s.lowSumpHolds ↔ ∀ k, s.sumpLow k = true → (s.pump k).state.committed = false := by
  have hc (k : PumpIx) : ((s.pump k).state ≠ .priming ∧ (s.pump k).state ≠ .rampUp ∧ (s.pump k).state ≠ .running) ↔
      (s.pump k).state.committed = false := by
    cases (s.pump k).state <;> simp [PumpState.committed]
  simp only [State.lowSumpHolds, hc, ← State.sumpIsLow_iff, State.sumpIsLow]
  constructor
  · rintro ⟨ha, hb⟩ k (⟨hk, hl⟩ | ⟨hk, hl⟩)
    · exact ha hl k hk
    · exact hb hl k hk
  · intro h
    exact ⟨fun hl k hk => h k (.inl ⟨hk, hl⟩), fun hl k hk => h k (.inr ⟨hk, hl⟩)⟩

/-! ### The stops of a settle point -/

/-- The stops of a settle point, its figures formed: the shed stops where C is above E, and else the demand stop (R56, R58). -/
def settleStops (s : State) : State :=
  if s.alloc.entitlement < s.committed then shedUntil s.alloc.entitlement 4 s
  else match demandStopChoice s with
    | some k => demandStop false k s
    | none => s

/-- The settle work: the figures, the stops, and then start wanted (R42). -/
theorem settleWork_eq (s : State) :
    settleWork s =
      { settleStops { s with alloc := settleFigures s } with
        alloc := { (settleStops { s with alloc := settleFigures s }).alloc with
          startWanted := startWantedNow
            (decide ((settleFigures s).entitlement < ({ s with alloc := settleFigures s } : State).committed))
            (settleStops { s with alloc := settleFigures s })
          shedSinceSettle := decide ((settleFigures s).entitlement < ({ s with alloc := settleFigures s } : State).committed) } } := by
  simp only [settleWork, settleStops, decide_eq_true_eq] <;> rfl

/-! ### No pump becomes active -/

/-- A pump state that is active, or counts for C, only where another does. -/
def PumpState.atMost (b a : PumpState) : Prop :=
  (b.active = true → a.active = true) ∧ (b.committed = true → a.committed = true)

theorem PumpState.atMost_refl (a : PumpState) : a.atMost a := ⟨id, id⟩

/-- No pump is active, or counts for C, in `t` that was not or did not in `s`. -/
def Calmer (s t : State) : Prop := ∀ k, (t.pump k).state.atMost (s.pump k).state

namespace Calmer

variable {s t u : State}

theorem refl (s : State) : Calmer s s := fun _ => PumpState.atMost_refl _

theorem trans (h : Calmer s t) (h' : Calmer t u) : Calmer s u :=
  fun k => ⟨fun hk => (h k).1 ((h' k).1 hk), fun hk => (h k).2 ((h' k).2 hk)⟩

theorem of_pumps (h : t.pumps = s.pumps) : Calmer s t := by
  intro k
  have e : t.pump k = s.pump k := by rw [State.pump, State.pump, h]
  rw [e]
  exact PumpState.atMost_refl _

theorem setPump {k : PumpIx} {p : Pump} (h : p.state.atMost (s.pump k).state) : Calmer s (s.setPump k p) := by
  intro j
  by_cases hj : k = j
  · subst hj
    rwa [State.pump_setPump_self]
  · rw [State.pump_setPump_of_ne hj]
    exact PumpState.atMost_refl _

/-- A pump record replaced with its state kept. -/
theorem setPump_same {k : PumpIx} {p : Pump} (h : p.state = (s.pump k).state) : Calmer s (s.setPump k p) :=
  setPump (by rw [h]; exact PumpState.atMost_refl _)

/-- A pump record replaced with a state in which no pump is active. -/
theorem setPump_inactive {k : PumpIx} {p : Pump} (h : p.state.active = false) : Calmer s (s.setPump k p) := by
  refine setPump ⟨fun ha => ?_, fun hc => ?_⟩
  · rw [h] at ha
    cases ha
  · cases hp : p.state <;> simp [hp, PumpState.active, PumpState.committed] at h hc

theorem enterResting (k : PumpIx) (s : State) : Calmer s (enterResting k s) :=
  (setPump_inactive (p := (s.pump k).toResting) rfl).trans (of_pumps rfl)

theorem faultPump (k : PumpIx) (c : FaultCause) (s : State) : Calmer s (faultPump k c s) :=
  (setPump_inactive (p := (s.pump k).toFaulted c) rfl).trans (of_pumps rfl)

theorem enterRampDown {k : PumpIx} (h : (s.pump k).state.active = true) : Calmer s (enterRampDown k s) := by
  have hs : Calmer s (s.setPump k { (s.pump k).leaveRun with state := .rampDown }) :=
    setPump ⟨fun _ => h, fun hc => by cases hc⟩
  exact hs.trans (of_pumps rfl)

theorem enterRampUp {k : PumpIx} (h : (s.pump k).state = .priming) : Calmer s (enterRampUp k s) := by
  have hs : Calmer s (s.setPump k (s.pump k).toRampUp) := setPump (by rw [h]; exact ⟨fun _ => rfl, fun _ => rfl⟩)
  exact hs.trans (of_pumps rfl)

theorem enterRunning {k : PumpIx} (h : (s.pump k).state = .rampUp) : Calmer s (enterRunning k s) := by
  have hs : Calmer s (s.setPump k { s.pump k with state := .running }) :=
    setPump (by rw [h]; exact ⟨fun _ => rfl, fun _ => rfl⟩)
  refine hs.trans (of_pumps ?_)
  simp only [Machine.enterRunning]
  split <;> rfl

theorem urgentStop (k : PumpIx) (s : State) : Calmer s (urgentStop k s) := by
  unfold Machine.urgentStop
  split
  · exact enterResting k s
  · exact refl s

theorem shedStop (k : PumpIx) (s : State) : Calmer s (shedStop k s) := by
  unfold Machine.shedStop
  split
  · exact enterResting k s
  · exact enterRampDown (by simp [*, PumpState.active])
  · exact enterRampDown (by simp [*, PumpState.active])
  all_goals exact refl s

theorem markFinishing (k : PumpIx) (s : State) : Calmer s (markFinishing k s) := by
  have hm : Calmer s (s.setPump k { s.pump k with finishing := true }) := setPump_same rfl
  unfold Machine.markFinishing
  split
  · exact hm.trans (of_pumps rfl)
  · split
    · exact enterRampDown (by simp [*, PumpState.active])
    · exact hm

theorem demandStop (d : Bool) (k : PumpIx) (s : State) : Calmer s (demandStop d k s) := by
  have hm := markFinishing k s
  unfold Machine.demandStop
  split
  · exact enterResting k s
  · repeat' split
    all_goals first
      | exact hm
      | exact refl s
  · repeat' split
    all_goals first
      | exact hm
      | exact refl s
  all_goals exact refl s

theorem superviseFeedback (k : PumpIx) (s : State) : Calmer s (superviseFeedback k s) := by
  unfold Machine.superviseFeedback
  dsimp only
  repeat' split
  · exact setPump_same rfl
  · exact faultPump k _ s
  · exact setPump_same rfl
  · exact refl s

theorem pumpRoundEnd (b : Bool) (k : PumpIx) (s : State) : Calmer s (pumpRoundEnd b k s) := by
  unfold Machine.pumpRoundEnd
  repeat' split
  · exact superviseFeedback k s
  · exact urgentStop k s
  · exact superviseFeedback k s

theorem pumpsRoundEnd (b : Bool) (s : State) : Calmer s (pumpsRoundEnd b s) :=
  (((pumpRoundEnd b 0 s).trans (pumpRoundEnd b 1 _)).trans (pumpRoundEnd b 2 _)).trans (pumpRoundEnd b 3 _)

theorem shedUntil (limit fuel : Nat) (s : State) : Calmer s (shedUntil limit fuel s) := by
  induction fuel generalizing s with
  | zero => exact refl s
  | succ n ih =>
    unfold Machine.shedUntil
    repeat' split
    · exact (shedStop _ s).trans (ih _)
    · exact refl s
    · exact refl s

theorem settleStops (s : State) : Calmer s (settleStops s) := by
  unfold Machine.settleStops
  split
  · exact shedUntil _ _ s
  · split
    · exact demandStop _ _ s
    · exact refl s

theorem settleWork (s : State) : Calmer s (settleWork s) := by
  have h : Calmer s (Machine.settleStops { s with alloc := settleFigures s }) :=
    (of_pumps (s := s) rfl).trans (settleStops { s with alloc := settleFigures s })
  rw [settleWork_eq]
  generalize Machine.settleStops { s with alloc := settleFigures s } = x at h
  exact h.trans (of_pumps rfl)

theorem takeSettlePoint (s : State) : Calmer s (takeSettlePoint s) := by
  unfold Machine.takeSettlePoint
  split
  · exact refl s
  · exact (of_pumps (s := s) rfl).trans (settleWork _)

theorem playEnded (k : PumpIx) (s : State) : Calmer s (playEnded k s) := by
  unfold Machine.playEnded
  split
  · split
    · exact enterRampDown (by simp [*, PumpState.active])
    · exact enterRunning ‹_›
  · split
    · exact enterRampDown (by simp [*, PumpState.active])
    · exact refl s
  · exact enterResting k s
  all_goals exact refl s

theorem playRanAway (k : PumpIx) (s : State) : Calmer s (playRanAway k s) := by
  unfold Machine.playRanAway
  split
  · exact faultPump k _ s
  · exact faultPump k _ s
  · exact faultPump k _ s
  all_goals exact refl s

theorem stepCompletes (k : PumpIx) (s : State) : Calmer s (stepCompletes k s) := by
  have set (p : Player) : Calmer s (s.setPlayer k p) := of_pumps rfl
  cases hp : (s.player k).playing with
  | false =>
    rw [stepCompletes_of_not (.inl hp)]
    exact refl s
  | true =>
    cases hs : (s.player k).step with
    | none =>
      rw [stepCompletes_of_not (.inr hs)]
      exact refl s
    | some cur =>
      obtain ⟨p, _, e⟩ | ⟨p, _, e⟩ | ⟨p, _, e⟩ := stepCompletes_of_playing hp hs <;> rw [e]
      · exact set p
      · exact (set p).trans (playEnded k _)
      · exact (set p).trans (playRanAway k _)

theorem stopLowPumps (b s : State) : Calmer s (stopLowPumps b s) := by
  intro k
  obtain ⟨e, _, _⟩ := stopLowPumps_at b s k
  by_cases hit : (s.sumpLow k && !b.sumpLow k) = true ∧ (s.pump k).state.active = true
  · rw [e, if_pos hit]
    exact ⟨fun h => absurd h Bool.false_ne_true, fun h => absurd h Bool.false_ne_true⟩
  · rw [e, if_neg hit]
    exact PumpState.atMost_refl _

theorem endScan (g : ProbeGroup) (s : State) : Calmer s (endScan g s) := by
  have read (x : State) (hx : x.pumps = s.pumps) : Calmer s (groupReading g x) := by
    obtain ⟨_, _, e⟩ := readLevel_changes g x
    cases g
    · exact (of_pumps (t := readSumps (readLevel .polder x)) (by rw [e]; exact hx)).trans (stopLowPumps _ _)
    · exact of_pumps (show (readLevel .outfall x).pumps = s.pumps by rw [e]; exact hx)
  have hr := read _ (setGroup_pumps g { s.gauge.group g with scan := none } s)
  obtain ⟨_, e⟩ := syncSampling_changes (groupReading g (setGroup g { s.gauge.group g with scan := none } s))
  unfold Machine.endScan
  dsimp only
  rw [e]
  split
  · exact hr.trans (of_pumps rfl)
  · exact hr.trans (of_pumps rfl)

theorem endCountingWindow (g : ProbeGroup) (p r : Nat) (s : State) : Calmer s (endCountingWindow g p r s) := by
  have done (q : Fin 6) {x : State} (hx : Calmer s x) : Calmer s (doneProbe g q x) := by
    unfold doneProbe
    split
    · exact hx.trans (of_pumps (setGroup_pumps _ _ _))
    · exact hx.trans (endScan g x)
  cases hc : (s.gauge.group g).scan with
  | none =>
    rw [endCountingWindow_of_none hc]
    exact refl s
  | some c =>
    have hw : Calmer s (recordWindow g c p r s) := by
      obtain ⟨_, e⟩ := recordWindow_changes g c p r s
      exact of_pumps (by rw [e])
    cases hj : judgePair c.first (windowCode p r) with
    | half code =>
      rw [endCountingWindow_of_half hc hj]
      exact hw.trans (of_pumps (setGroup_pumps _ _ _))
    | accepted code =>
      rw [endCountingWindow_of_accepted hc hj]
      exact done _ (hw.trans (of_pumps rfl))
    | dropped =>
      rw [endCountingWindow_of_dropped hc hj]
      unfold dropPair
      dsimp only
      split
      · exact done _ (hw.trans (of_pumps rfl))
      · exact hw.trans (of_pumps (setGroup_pumps _ _ _))

/-- No event of the pumps, the gauges or the settle point makes a pump active. -/
theorem pumpWork {i : Instr} {f : State → State} (hi : pumpWork i = some f) (s : State) : Calmer s (f s) := by
  cases i <;> cases hi
  case settlePoint => exact takeSettlePoint s
  case stepCompletion k => exact stepCompletes k s
  case countingWindowEnd g p r => exact endCountingWindow g p r s
  case primeSenseAsserted k =>
    unfold primeSensed
    split
    · exact enterRampUp ‹_›
    · exact refl s
  case primeTimerExpiry k =>
    unfold primeTimerExpires
    dsimp only
    repeat' split
    · exact faultPump k _ s
    · exact setPump_same rfl
    · exact refl s
  case feedbackDueExpiry k b =>
    unfold feedbackDueExpires
    dsimp only
    repeat' split
    · exact setPump_same rfl
    · exact faultPump k _ s
    · exact setPump_same rfl
    · exact refl s
  case minimumRunExpiry k =>
    unfold minimumRunExpires
    dsimp only
    split
    · exact setPump_same rfl
    · exact refl s
  case restTimerExpiry k =>
    unfold restTimerExpires
    dsimp only
    repeat' split
    · exact setPump_inactive rfl
    · exact setPump_inactive rfl
    · exact setPump_same rfl
    · exact refl s
  case runSecond k =>
    unfold secondPasses
    dsimp only
    split
    · refine setPump_same ?_
      unfold Pump.countSecond
      split <;> rfl
    · exact setPump_same rfl

/-- No service command makes a pump active. -/
theorem serviceWork {i : Instr} {w : State → State × Answer} (hi : serviceWork i = some w) (s : State) : Calmer s (w s).1 := by
  obtain rfl | ⟨k, rfl⟩ | ⟨ix, sp, hd, m, rfl⟩ | ⟨k, u, r, d, q, rfl⟩ | ⟨k, rfl⟩ | ⟨k, rfl⟩ | ⟨k, rfl⟩ | ⟨k, m, rfl⟩ | rfl |
    ⟨_, _, e, _, _⟩ := serviceWork_cases hi s
  case inr.inr.inr.inr.inr.inr.inr.inr.inr => exact of_pumps (by rw [e])
  all_goals cases hi
  · exact of_pumps rfl
  · unfold workForgetEntry
    repeat' split
    all_goals exact of_pumps rfl
  · obtain ⟨_, e⟩ := workWriteStep_changes ix sp hd m s
    exact of_pumps (by rw [e])
  · obtain ⟨_, e⟩ := workWritePointers_changes k u r d q s
    exact of_pumps (by rw [e])
  · unfold workHoldPump
    repeat' split
    · exact refl s
    · rename_i j _ _
      have hold : Calmer s (holdPump j s) := by
        have pend : Calmer s (s.setPump j { s.pump j with holdPending := true }) := setPump_same rfl
        unfold holdPump
        dsimp only
        split
        · exact setPump_inactive rfl
        · exact setPump_inactive rfl
        · exact pend.trans (demandStop _ _ _)
        · exact pend.trans (demandStop _ _ _)
        · exact pend.trans (demandStop _ _ _)
        · exact pend
        · exact pend
        all_goals exact refl s
      exact hold.trans (of_pumps (follow_pumps _))
    · exact refl s
  · unfold workReleasePump releasePump
    repeat' split
    · exact refl s
    · exact enterResting _ s
    · exact setPump_same rfl
    · exact refl s
  · unfold workClearFault clearFault
    repeat' split
    · exact (setPump_same (p := { s.pump _ with cause := none }) rfl).trans (enterResting _ _)
    · exact refl s
    · exact refl s
  · unfold workSetRunMinutes
    dsimp only
    repeat' split
    · exact refl s
    · exact setPump_same rfl
    · exact refl s
  · exact of_pumps rfl

end Calmer

/-- The four pumps after one microsecond. -/
theorem pump_advance {s : State} (h : s.cond = .running) (k : PumpIx) : (advance s).pump k = (s.pump k).pass := by
  unfold advance
  rw [h]
  fin_cases k <;> rfl

theorem Calmer.advance (s : State) : Calmer s (advance s) := by
  by_cases hc : s.cond = .running
  · intro k
    rw [pump_advance hc]
    exact PumpState.atMost_refl _
  · refine Calmer.of_pumps ?_
    unfold Machine.advance
    dsimp only
    split
    · rfl
    · rfl
    · rfl
    · exact absurd ‹_› hc

end Sys2Proof.Machine
end

section
/-! A pump stopped by F1 or by its low sump runs no more while the stop stands (R19, R127). -/

namespace Sys2Proof.Machine

open Sys2Proof

set_option Elab.async false

/-! ### F1 DISTRICT STOP (R19) -/

/-- No pump becomes active, and F1 is accepted only where it was: the law stands. -/
theorem districtStopHolds_of_calmer {s t : State} (h : s.districtStopHolds) (hc : Calmer s t)
    (ht : districtStop t.table.accepted = true → districtStop s.table.accepted = true) : t.districtStopHolds := by
  rw [State.districtStopHolds_iff] at h ⊢
  intro hf k
  have hk := h (ht hf) k
  exact Bool.eq_false_iff.mpr fun ha => by simp [(hc k).1 ha] at hk

/-- The pump's part of a round end with F1 entering leaves its pump in no active state (R19, R94). -/
theorem pumpRoundEnd_stops (k : PumpIx) (s : State) : ((pumpRoundEnd true k s).pump k).state.active = false := by
  unfold pumpRoundEnd
  by_cases ha : (s.pump k).state.active = true
  · simp only [ha, Bool.and_self, if_true]
    split
    · rename_i hr
      simp only [State.readingFaults, Bool.and_eq_true, Bool.not_eq_true', decide_eq_true_eq] at hr
      obtain ⟨⟨⟨⟨hs, hruns⟩, hfb⟩, hm⟩, _⟩ := hr
      simp only [superviseFeedback, hs, hruns, hfb, hm, Bool.and_self, if_true, Bool.false_eq_true, if_false]
      rw [faultPump_pump_self]
      rfl
    · rw [urgentStop_pump, if_pos ⟨rfl, ha⟩]
      rfl
  · simp only [ha, Bool.and_false, Bool.false_eq_true, if_false]
    exact Bool.eq_false_iff.mpr fun h => ha ((Calmer.superviseFeedback k s k).1 h)

/-- Where F1 enters, the round end leaves no pump in an active state. -/
theorem pumpsRoundEnd_stops (s : State) (k : PumpIx) : ((pumpsRoundEnd true s).pump k).state.active = false := by
  have keep {a b : State} (h : Calmer a b) (ha : (a.pump k).state.active = false) : (b.pump k).state.active = false :=
    Bool.eq_false_iff.mpr fun hb => by simp [(h k).1 hb] at ha
  let s₁ := pumpRoundEnd true 0 s
  let s₂ := pumpRoundEnd true 1 s₁
  let s₃ := pumpRoundEnd true 2 s₂
  have c₂ : Calmer s₁ s₂ := Calmer.pumpRoundEnd true 1 s₁
  have c₃ : Calmer s₂ s₃ := Calmer.pumpRoundEnd true 2 s₂
  have c₄ : Calmer s₃ (pumpsRoundEnd true s) := Calmer.pumpRoundEnd true 3 s₃
  fin_cases k
  · exact keep (c₂.trans (c₃.trans c₄)) (pumpRoundEnd_stops 0 s)
  · exact keep (c₃.trans c₄) (pumpRoundEnd_stops 1 s₁)
  · exact keep c₄ (pumpRoundEnd_stops 2 s₂)
  · exact pumpRoundEnd_stops 3 s₃

theorem gaugeRoundEnd_pumps (s : State) : (gaugeRoundEnd s).pumps = s.pumps ∧ (gaugeRoundEnd s).table = s.table := by
  obtain ⟨_, e⟩ := gaugeRoundEnd_changes s
  rw [e]
  exact ⟨rfl, rfl⟩

theorem pumpsRoundEnd_table (b : Bool) (s : State) : (pumpsRoundEnd b s).table = s.table := by
  obtain ⟨_, _, _, _, e⟩ := pumpsRoundEnd_changes b s
  rw [e]

theorem districtStopHolds_restRoundEnd {s : State} (h : s.districtStopHolds) :
    (gaugeRoundEnd (pumpsRoundEnd (stopEnters s (tableRoundEnd s)) (tableRoundEnd s))).districtStopHolds := by
  obtain ⟨hp, ht⟩ := gaugeRoundEnd_pumps (pumpsRoundEnd (stopEnters s (tableRoundEnd s)) (tableRoundEnd s))
  refine districtStopHolds_of_calmer ?_ (Calmer.of_pumps hp) (by rw [ht]; exact id)
  cases he : stopEnters s (tableRoundEnd s) with
  | true =>
    rw [State.districtStopHolds_iff]
    exact fun _ => pumpsRoundEnd_stops _
  | false =>
    have hc : Calmer s (tableRoundEnd s) := by
      obtain ⟨_, _, e⟩ := tableRoundEnd_changes s
      exact Calmer.of_pumps (by rw [e])
    refine districtStopHolds_of_calmer h (hc.trans (Calmer.pumpsRoundEnd false _)) fun ha => ?_
    rw [pumpsRoundEnd_table] at ha
    simpa [stopEnters, ha] using he

/-- A start touches its own pump alone. -/
theorem startPump_pump_of_ne {j k : PumpIx} (h : j ≠ k) (s : State) :
    (startPump k s).pump j = s.pump j ∧ (startPump k s).player j = s.player j := by
  unfold startPump
  dsimp only
  repeat' split
  all_goals simp [h, Ne.symm h]

/-- What the take of a start can do: it starts the pump of a valid start, or changes nothing. -/
theorem takeStart_cases (s : State) :
    takeStart s = s ∨ ∃ k, s.arb.pendingStart = some k ∧ s.startIsValid k ∧ takeStart s = syncSampling (startPump k s) := by
  unfold takeStart
  split
  · rename_i k hk
    split
    · exact .inr ⟨k, hk, (State.startIsValid_iff s k).mpr ‹_›, rfl⟩
    · exact .inl rfl
  · exact .inl rfl

theorem syncSampling_pumps (s : State) : (syncSampling s).pumps = s.pumps ∧ (syncSampling s).table = s.table := by
  obtain ⟨_, e⟩ := syncSampling_changes s
  rw [e]
  exact ⟨rfl, rfl⟩

theorem districtStopHolds_takeStart {s : State} (h : s.districtStopHolds) : (takeStart s).districtStopHolds := by
  obtain e | ⟨k, _, ⟨_, _, hf, _⟩, e⟩ := takeStart_cases s
  · rwa [e]
  · rw [e]
    intro ht
    obtain ⟨_, _, es⟩ := startPump_changes k s
    rw [(syncSampling_pumps _).2, es] at ht
    exact absurd (hf.symm.trans ht) Bool.false_ne_true

theorem districtStopHolds_roundKeeps : RoundKeeps State.districtStopHolds where
  timer _ _ h := h
  port _ _ h := h
  free _ _ h := h
  arb _ _ h _ := h
  line _ _ h _ _ := h
  cable s c x h _ :=
    districtStopHolds_of_calmer h (Calmer.of_pumps (setCable_pumps c x s)) (by rw [setCable_table]; exact id)
  lineRoundEnd s h := by
    obtain ⟨_, _, e⟩ := lineRoundEnd_changes s
    rw [e]
    exact h
  restRoundEnd _ h := districtStopHolds_restRoundEnd h
  announcement _ _ h := h
  confirmation s c h := by
    unfold applyConfirmation
    split
    · exact h
    · exact h
  starts s w _ h := districtStopHolds_takeStart (s := { s with table := { s.table with ownStartSeen := w } }) h

theorem districtStopHolds_reset : State.reset.districtStopHolds := by
  unfold State.districtStopHolds
  decide

/-- After the strap reading every pump is IDLE or ABSENT (R81). -/
theorem pump_beginBlocks (s : State) (k : PumpIx) : (beginBlocks s).pump k = fitPump s.straps k (s.pump k) := by
  fin_cases k <;> rfl

theorem fitPump_inactive (l : StrapLevels) (k : PumpIx) (p : Pump) : (fitPump l k p).state.active = false := by
  unfold fitPump fittedState
  split <;> rfl

theorem Calmer.beginBlocks (s : State) : Calmer s (beginBlocks s) := by
  intro k
  rw [pump_beginBlocks]
  have h := fitPump_inactive s.straps k (s.pump k)
  refine ⟨fun ha => by simp [h] at ha, fun hc => ?_⟩
  cases hp : (fitPump s.straps k (s.pump k)).state <;> simp [hp, PumpState.active, PumpState.committed] at h hc

theorem serviceWork_accepted {i : Instr} {w : State → State × Answer} (hi : serviceWork i = some w) (s : State) :
    (w s).1.table.accepted = s.table.accepted := by
  obtain rfl | ⟨k, rfl⟩ | ⟨ix, sp, hd, m, rfl⟩ | ⟨k, u, r, d, q, rfl⟩ | ⟨k, rfl⟩ | ⟨k, rfl⟩ | ⟨k, rfl⟩ | ⟨k, m, rfl⟩ | rfl |
    ⟨_, _, e, _, _⟩ := serviceWork_cases hi s
  case inr.inr.inr.inr.inr.inr.inr.inr.inr => rw [e]
  all_goals cases hi
  · rfl
  · unfold workForgetEntry
    repeat' split
    all_goals rfl
  · obtain ⟨_, e⟩ := workWriteStep_changes ix sp hd m s
    rw [e]
  · obtain ⟨_, e⟩ := workWritePointers_changes k u r d q s
    rw [e]
  · obtain ⟨_, _, _, _, _, e⟩ := workHoldPump_changes k s
    rw [e]
  · obtain ⟨_, _, _, e⟩ := workReleasePump_changes k s
    rw [e]
  · obtain ⟨_, _, _, e⟩ := workClearFault_changes k s
    rw [e]
  · obtain ⟨_, e⟩ := workSetRunMinutes_changes k m s
    rw [e]
  · rfl

theorem districtStopHolds_stepKeeps : StepKeeps State.districtStopHolds where
  outside _ _ _ _ _ h := h
  cold _ _ := districtStopHolds_reset
  warm _ _ := fun h => absurd h (show ¬ (0 : FlagSet).getLsbD 1 = true by decide)
  resetEnd _ _ _ h := h
  strapFault _ _ _ h := h
  begins s l _ h := districtStopHolds_of_calmer h (Calmer.beginBlocks { s with straps := l, strapPins := l }) id
  event i f hi s hc h := by
    refine districtStopHolds_of_calmer (s := f s) ?_ (Calmer.of_pumps (follow_pumps _)) (by rw [follow_table]; exact id)
    obtain hl | hp | hr := eventWork_cases hi
    · obtain ⟨_, _, _, _, e⟩ := lineWork_changes hl s
      rw [e]
      exact h
    · refine districtStopHolds_of_calmer h (Calmer.pumpWork hp s) ?_
      obtain ⟨_, _, _, _, _, _, _, e⟩ := pumpWork_changes hp s
      rw [e]
      exact id
    · exact districtStopHolds_roundKeeps.event hr hc h
  service i w hi s _ h :=
    districtStopHolds_of_calmer h (Calmer.serviceWork hi s) (by rw [serviceWork_accepted hi]; exact id)
  pass s h := by
    refine districtStopHolds_of_calmer h (Calmer.advance s) ?_
    obtain ⟨_, _, _, _, _, _, _, _, _, e⟩ := advance_changes s
    rw [e]
    exact id

/-! ### A LOW sump (R103) -/

/-- No pump becomes one that counts for C, and a sump is LOW only where it was: the law stands. -/
theorem lowSumpHolds_of_calmer {s t : State} (h : s.lowSumpHolds) (hc : Calmer s t)
    (ht : ∀ k, t.sumpLow k = true → s.sumpLow k = true) : t.lowSumpHolds := by
  rw [State.lowSumpHolds_iff] at h ⊢
  intro k hl
  have hk := h k (ht k hl)
  exact Bool.eq_false_iff.mpr fun ha => by simp [(hc k).2 ha] at hk

/-- Two states whose sumps stand alike. -/
theorem sumpLow_congr {s t : State} (ha : t.gauge.sumpA = s.gauge.sumpA) (hb : t.gauge.sumpB = s.gauge.sumpB) (k : PumpIx) :
    t.sumpLow k = s.sumpLow k := by
  simp only [State.sumpLow, ha, hb]

theorem setGroup_sumpLow (g : ProbeGroup) (r : GaugeGroup) (s : State) (k : PumpIx) : (setGroup g r s).sumpLow k = s.sumpLow k := by
  cases g <;> rfl

@[simp] theorem follow_sumpLow (s : State) (k : PumpIx) : (follow s).sumpLow k = s.sumpLow k := by
  obtain ⟨_, e⟩ := watchStart_changes (syncSampling s)
  rw [follow, e]
  exact syncSampling_sumpLow k s

theorem gaugeRoundEnd_sumpLow (s : State) (k : PumpIx) : (gaugeRoundEnd s).sumpLow k = s.sumpLow k := by
  simp only [gaugeRoundEnd]
  split
  · rw [syncSampling_sumpLow]
    split <;> rfl
  · split
    · exact syncSampling_sumpLow k s
    · exact syncSampling_sumpLow k s

/-- A polder reading stops the pumps of a sump that it makes LOW; an outfall reading judges no sump (R103, R132). -/
theorem lowSumpHolds_groupReading {g : ProbeGroup} {s : State} (h : s.lowSumpHolds) : (groupReading g s).lowSumpHolds := by
  obtain ⟨_, _, e⟩ := readLevel_changes g s
  have hp : (readLevel g s).pumps = s.pumps := by rw [e]
  cases g with
  | outfall =>
    refine lowSumpHolds_of_calmer (t := readLevel .outfall s) h (Calmer.of_pumps hp) fun k hk => ?_
    rw [← hk]
    simp only [readLevel]
    repeat' split
    all_goals rfl
  | polder =>
    rw [State.lowSumpHolds_iff] at h ⊢
    intro k hk
    have hx : (readSumps (readLevel .polder s)).pump k = s.pump k := by
      show (readLevel .polder s).pump k = s.pump k
      rw [State.pump, State.pump, hp]
    obtain ⟨hpump, _, _⟩ := stopLowPumps_at s (readSumps (readLevel .polder s)) k
    have hlow : (readSumps (readLevel .polder s)).sumpLow k = true := by
      obtain ⟨_, _, _, e'⟩ := stopLowPumps_changes s (readSumps (readLevel .polder s))
      have hk' : (stopLowPumps s (readSumps (readLevel .polder s))).sumpLow k = true := hk
      rw [e'] at hk'
      exact hk'
    show ((stopLowPumps s (readSumps (readLevel .polder s))).pump k).state.committed = false
    rw [hpump, hlow, hx]
    cases hs : s.sumpLow k with
    | true =>
      rw [if_neg (by simp)]
      exact h k hs
    | false =>
      cases ha : (s.pump k).state.active with
      | true => rfl
      | false =>
        rw [if_neg (by simp)]
        cases hst : (s.pump k).state <;> simp [hst, PumpState.active, PumpState.committed] at ha ⊢

theorem lowSumpHolds_endScan {g : ProbeGroup} {s : State} (h : s.lowSumpHolds) : (endScan g s).lowSumpHolds := by
  have h₁ : (setGroup g { s.gauge.group g with scan := none } s).lowSumpHolds :=
    lowSumpHolds_of_calmer h (Calmer.of_pumps (setGroup_pumps _ _ _)) fun k hk => by rwa [setGroup_sumpLow] at hk
  have h₂ := lowSumpHolds_groupReading (g := g) h₁
  have h₃ := lowSumpHolds_of_calmer h₂ (Calmer.of_pumps (syncSampling_pumps _).1) fun k hk => by
    rwa [syncSampling_sumpLow] at hk
  unfold endScan
  dsimp only
  split
  · exact h₃
  · exact h₃

theorem lowSumpHolds_endCountingWindow {g : ProbeGroup} {p r : Nat} {s : State} (h : s.lowSumpHolds) :
    (endCountingWindow g p r s).lowSumpHolds := by
  have group (x : GaugeGroup) {u : State} (hu : u.lowSumpHolds) : (setGroup g x u).lowSumpHolds :=
    lowSumpHolds_of_calmer hu (Calmer.of_pumps (setGroup_pumps _ _ _)) fun k hk => by rwa [setGroup_sumpLow] at hk
  have probe (q : Fin 6) (x : Probe) {u : State} (hu : u.lowSumpHolds) : (setProbe q x u).lowSumpHolds := hu
  have done (q : Fin 6) {u : State} (hu : u.lowSumpHolds) : (doneProbe g q u).lowSumpHolds := by
    unfold doneProbe
    split
    · exact group _ hu
    · exact lowSumpHolds_endScan hu
  cases hc : (s.gauge.group g).scan with
  | none => rwa [endCountingWindow_of_none hc]
  | some c =>
    have hw : (recordWindow g c p r s).lowSumpHolds := group _ (probe _ _ h)
    cases hj : judgePair c.first (windowCode p r) with
    | half code =>
      rw [endCountingWindow_of_half hc hj]
      exact group _ hw
    | accepted code =>
      rw [endCountingWindow_of_accepted hc hj]
      exact done _ (probe _ _ hw)
    | dropped =>
      rw [endCountingWindow_of_dropped hc hj]
      unfold dropPair
      dsimp only
      split
      · exact done _ (probe _ _ hw)
      · exact group _ hw

theorem lowSumpHolds_takeStart {s : State} (h : s.lowSumpHolds) : (takeStart s).lowSumpHolds := by
  obtain e | ⟨k, _, ⟨_, hl, _⟩, e⟩ := takeStart_cases s
  · rwa [e]
  · rw [e, State.lowSumpHolds_iff]
    rw [State.lowSumpHolds_iff] at h
    intro j hj
    have hsl : s.sumpLow j = true := by
      rw [syncSampling_sumpLow] at hj
      obtain ⟨_, _, es⟩ := startPump_changes k s
      rw [es] at hj
      exact hj
    have hjk : j ≠ k := by
      rintro rfl
      exact hl ((State.sumpIsLow_iff s j).mpr hsl)
    rw [State.pump, (syncSampling_pumps _).1]
    show ((startPump k s).pump j).state.committed = false
    rw [(startPump_pump_of_ne hjk s).1]
    exact h j hsl

theorem lowSumpHolds_roundKeeps : RoundKeeps State.lowSumpHolds where
  timer _ _ h := h
  port _ _ h := h
  free _ _ h := h
  arb _ _ h _ := h
  line _ _ h _ _ := h
  cable s c x h _ :=
    lowSumpHolds_of_calmer h (Calmer.of_pumps (setCable_pumps c x s)) fun k hk => by
      rwa [State.sumpLow, setCable_gauge] at hk
  lineRoundEnd s h := by
    obtain ⟨_, _, e⟩ := lineRoundEnd_changes s
    rw [e]
    exact h
  restRoundEnd s h := by
    obtain ⟨hp, _⟩ := gaugeRoundEnd_pumps (pumpsRoundEnd (stopEnters s (tableRoundEnd s)) (tableRoundEnd s))
    have ht : (tableRoundEnd s).lowSumpHolds := by
      obtain ⟨_, _, e⟩ := tableRoundEnd_changes s
      rw [e]
      exact h
    have hr : (pumpsRoundEnd (stopEnters s (tableRoundEnd s)) (tableRoundEnd s)).lowSumpHolds := by
      refine lowSumpHolds_of_calmer ht (Calmer.pumpsRoundEnd _ _) fun k hk => ?_
      obtain ⟨_, _, _, _, e⟩ := pumpsRoundEnd_changes (stopEnters s (tableRoundEnd s)) (tableRoundEnd s)
      rw [e] at hk
      exact hk
    exact lowSumpHolds_of_calmer hr (Calmer.of_pumps hp) fun k hk => by rwa [gaugeRoundEnd_sumpLow] at hk
  announcement _ _ h := h
  confirmation s c h := by
    unfold applyConfirmation
    split
    · exact h
    · exact h
  starts s w _ h := lowSumpHolds_takeStart (s := { s with table := { s.table with ownStartSeen := w } }) h

theorem lowSumpHolds_reset : State.reset.lowSumpHolds := by
  unfold State.lowSumpHolds
  decide

theorem serviceWork_sumpLow {i : Instr} {w : State → State × Answer} (hi : serviceWork i = some w) (s : State) (k : PumpIx) :
    (w s).1.sumpLow k = s.sumpLow k := by
  obtain rfl | ⟨k, rfl⟩ | ⟨ix, sp, hd, m, rfl⟩ | ⟨k, u, r, d, q, rfl⟩ | ⟨k, rfl⟩ | ⟨k, rfl⟩ | ⟨k, rfl⟩ | ⟨k, m, rfl⟩ | rfl |
    ⟨_, _, e, _, _⟩ := serviceWork_cases hi s
  case inr.inr.inr.inr.inr.inr.inr.inr.inr =>
    rw [e]
    rfl
  all_goals cases hi
  · rfl
  · unfold workForgetEntry
    repeat' split
    all_goals rfl
  · obtain ⟨_, e⟩ := workWriteStep_changes ix sp hd m s
    rw [e]
    rfl
  · obtain ⟨_, e⟩ := workWritePointers_changes k u r d q s
    rw [e]
    rfl
  · unfold workHoldPump
    repeat' split
    · rfl
    · rename_i j _ _
      obtain ⟨_, _, _, e⟩ := holdPump_changes j s
      show (follow (holdPump j s)).sumpLow _ = _
      rw [follow_sumpLow, e]
      rfl
    · rfl
  · obtain ⟨_, _, _, e⟩ := workReleasePump_changes k s
    rw [e]
    rfl
  · obtain ⟨_, _, _, e⟩ := workClearFault_changes k s
    rw [e]
    rfl
  · obtain ⟨_, e⟩ := workSetRunMinutes_changes k m s
    rw [e]
    rfl
  · rfl

theorem lowSumpHolds_stepKeeps : StepKeeps State.lowSumpHolds where
  outside _ _ _ _ _ h := h
  cold _ _ := lowSumpHolds_reset
  warm _ _ := ⟨fun h => absurd h Bool.false_ne_true, fun h => absurd h Bool.false_ne_true⟩
  resetEnd _ _ _ h := h
  strapFault _ _ _ h := h
  begins s l _ h := lowSumpHolds_of_calmer h (Calmer.beginBlocks { s with straps := l, strapPins := l }) fun _ => id
  event i f hi s hc h := by
    refine lowSumpHolds_of_calmer (s := f s) ?_ (Calmer.of_pumps (follow_pumps _)) fun k => by rw [follow_sumpLow]; exact id
    obtain hl | hp | hr := eventWork_cases hi
    · obtain ⟨_, _, _, _, e⟩ := lineWork_changes hl s
      rw [e]
      exact h
    · obtain rfl | ⟨g, p, r, rfl⟩ | ⟨_, _, _, _, e⟩ := pumpWork_cases hp s
      · refine lowSumpHolds_of_calmer h (Calmer.pumpWork hp s) fun k hk => ?_
        cases hp
        obtain ⟨_, _, _, _, _, e⟩ := takeSettlePoint_changes s
        rw [e] at hk
        exact hk
      · cases hp
        exact lowSumpHolds_endCountingWindow h
      · refine lowSumpHolds_of_calmer h (Calmer.pumpWork hp s) fun k hk => ?_
        rw [e] at hk
        exact hk
    · exact lowSumpHolds_roundKeeps.event hr hc h
  service i w hi s _ h := lowSumpHolds_of_calmer h (Calmer.serviceWork hi s) fun k => by rw [serviceWork_sumpLow hi]; exact id
  pass s h := by
    refine lowSumpHolds_of_calmer h (Calmer.advance s) fun k hk => ?_
    unfold advance at hk
    dsimp only at hk
    split at hk
    all_goals exact hk

/-- Settles O57: nothing but a start makes a pump active, and a start asks that no law stands against it; where a law comes to
stand, the round end or the group reading stops the pumps in the same act. -/
theorem everyStepKeepsTheStopLaws : Obligations.EveryStepKeepsTheStopLaws :=
  ⟨fun _ _ hs ht => districtStopHolds_stepKeeps.step hs ht, fun _ _ hs ht => lowSumpHolds_stepKeeps.step hs ht⟩

end Sys2Proof.Machine
end

section
/-! SILENT lasts until a reset, and a station in it has nothing to send (R39). -/

namespace Sys2Proof.Machine

open Sys2Proof

set_option Elab.async false

/-! ### What the line interface keeps at a round end -/

theorem checkRoundEnd_line (s : State) :
    ∃ k r, checkRoundEnd s = { s with line := { s.line with check := k }, port := r } := by
  simp only [checkRoundEnd]
  repeat' split
  all_goals exact ⟨_, _, rfl⟩

theorem switchTest_line (s : State) :
    ∃ c k r, switchTest s = { s with line := { s.line with active := c, check := k }, port := r } := by
  simp only [switchTest, setActive, abortCheck]
  repeat' split
  all_goals exact ⟨_, _, _, rfl⟩

/-- The line interface's round-end work touches no frame of the part's own and no hold. -/
theorem lineRoundEnd_line (s : State) :
    ∃ a b c k r, lineRoundEnd s = { s with line := { s.line with a := a, b := b, active := c, check := k }, port := r } := by
  obtain ⟨_, _, e₁⟩ := checkRoundEnd_line s
  unfold lineRoundEnd
  rw [e₁]
  obtain ⟨_, _, _, e₂⟩ := switchTest_line _
  rw [e₂]
  exact ⟨_, _, _, _, _, rfl⟩

/-! ### The mode of a station -/

@[simp] theorem setMode_mode (m : Mode) (s : State) : (setMode m s).timer.mode = m := by
  unfold setMode
  split
  · assumption
  · rfl

/-- The round end neither sends a station to SILENT nor brings it out of it (R34, R36, R39). -/
theorem countsRoundEnd_silent_iff (s : State) : (countsRoundEnd s).timer.mode = .silent ↔ s.timer.mode = .silent := by
  simp only [countsRoundEnd]
  cases hm : s.timer.mode
  all_goals
    dsimp only
    repeat' split
  all_goals simp [hm]

/-! ### Steps that keep a station quiet -/

/-- A SILENT station has no announcement handed over and no frame under way. -/
def State.quiet (s : State) : Prop := s.timer.mode = .silent → s.line.handed = none ∧ s.line.tx = none

/-- From `s` to `t` a quiet station stays quiet and a SILENT one SILENT. -/
def StaysQuiet (s t : State) : Prop := (s.quiet → t.quiet) ∧ (s.timer.mode = .silent → t.timer.mode = .silent)

namespace StaysQuiet

variable {s t u : State}

theorem refl (s : State) : StaysQuiet s s := ⟨id, id⟩

theorem trans (h : StaysQuiet s t) (h' : StaysQuiet t u) : StaysQuiet s u := ⟨h'.1 ∘ h.1, h'.2 ∘ h.2⟩

/-- A frame is at most stopped or dropped, and the station is SILENT where it was. -/
theorem of_mode (hm : t.timer.mode = .silent ↔ s.timer.mode = .silent)
    (hh : t.line.handed = s.line.handed ∨ t.line.handed = none) (ht : t.line.tx = s.line.tx ∨ t.line.tx = none) :
    StaysQuiet s t := by
  refine ⟨fun hq hs => ?_, hm.mpr⟩
  obtain ⟨h₁, h₂⟩ := hq (hm.mp hs)
  rw [h₁] at hh
  rw [h₂] at ht
  exact ⟨hh.elim id id, ht.elim id id⟩

theorem of_eq (hm : t.timer.mode = s.timer.mode) (hl : t.line = s.line) : StaysQuiet s t :=
  of_mode (by rw [hm]) (.inl (by rw [hl])) (.inl (by rw [hl]))

theorem setRealigned (s : State) (p : Nat) (c r : Word16) (l : List Replaced) :
    StaysQuiet s { s with timer := { s.timer with phase := p, count := c, realignCount := r, replaced := l } } :=
  of_eq rfl rfl

theorem setRoundMarked (s : State) (b : Bool) : StaysQuiet s { s with timer := { s.timer with roundMarked := b } } :=
  of_eq rfl rfl

theorem roundEndWork (s : State) : StaysQuiet s (roundEndWork s) := by
  obtain ⟨_, _, _, _, _, e₁⟩ := lineRoundEnd_line s
  have h₁ : StaysQuiet s (lineRoundEnd s) := by
    rw [e₁]
    exact of_mode Iff.rfl (.inl rfl) (.inl rfl)
  have h₂ (x : State) : StaysQuiet x (tableRoundEnd x) := by
    obtain ⟨_, _, e⟩ := tableRoundEnd_changes x
    rw [e]
    exact of_eq rfl rfl
  have h₃ (b : Bool) (x : State) : StaysQuiet x (pumpsRoundEnd b x) := by
    obtain ⟨_, _, _, _, e⟩ := pumpsRoundEnd_changes b x
    rw [e]
    exact of_eq rfl rfl
  have h₄ (x : State) : StaysQuiet x (gaugeRoundEnd x) := by
    obtain ⟨_, e⟩ := gaugeRoundEnd_changes x
    rw [e]
    exact of_eq rfl rfl
  have h₅ (x : State) : StaysQuiet x (timerRoundEnd x) := by
    have hl : (timerRoundEnd x).line = x.line := by
      obtain ⟨_, _, e⟩ := timerRoundEnd_changes x
      rw [e]
    exact of_mode (countsRoundEnd_silent_iff x) (.inl (by rw [hl])) (.inl (by rw [hl]))
  exact (h₁.trans ((h₂ _).trans ((h₃ _ _).trans ((h₄ _).trans (h₅ _))))).trans (of_eq rfl rfl)

theorem skipInstants (lo hi : Nat) (s : State) : StaysQuiet s (skipInstants lo hi s) := by
  simp only [Machine.skipInstants]
  repeat' split
  · exact of_mode Iff.rfl (.inr rfl) (.inl rfl)
  · exact of_mode Iff.rfl (.inr rfl) (.inl rfl)
  · exact of_eq rfl rfl
  · exact refl s

/-- The instants that a realignment forward passes over (R28). -/
theorem passInstants (old new move : Nat) (s : State) : StaysQuiet s
    (if move ≤ 250000 then
      if 500000 ≤ old + move then Machine.skipInstants 0 new (Machine.roundEndWork (Machine.skipInstants old 500000 s))
      else Machine.skipInstants old new s
    else s) := by
  split
  · split
    · exact ((skipInstants _ _ s).trans (roundEndWork _)).trans (skipInstants _ _ _)
    · exact skipInstants _ _ s
  · exact refl s

theorem realign (k : Station) (c : Word16) (age : Nat) (s : State) : StaysQuiet s (realign k c age s) := by
  unfold Machine.realign
  extract_lets old oldCount new move s₁ phaseChange countChange
  have h₁ : StaysQuiet s s₁ := passInstants old new move s
  clear_value s₁ new phaseChange countChange
  exact h₁.trans (setRealigned s₁ new _ _ _)

theorem realignOrHold (k : Station) (c : Word16) (age : Nat) (s : State) : StaysQuiet s (realignOrHold k c age s) := by
  have hr := realign k c age s
  unfold Machine.realignOrHold
  split
  · split
    · exact of_eq rfl rfl
    · exact hr
  · exact hr

theorem releaseRealignment (s : State) : StaysQuiet s (releaseRealignment s) := by
  unfold Machine.releaseRealignment
  extract_lets window _ s₁
  have h₁ : StaysQuiet s s₁ := of_eq rfl rfl
  split
  · rename_i m _
    have h₂ : StaysQuiet s₁ { s₁ with timer := { s₁.timer with held := none } } := of_eq rfl rfl
    have h₃ := (h₁.trans h₂).trans (realign m.sender m.frameCount m.edgeAge _)
    exact h₃.trans (setRoundMarked _ _)
  · exact h₁

/-- A station that goes to SILENT drops what it had to send. -/
theorem goSilent (s : State) : StaysQuiet s (goSilent s) := by
  unfold Machine.goSilent
  split
  · exact refl s
  · rename_i hm
    refine ⟨fun _ _ => ?_, fun h => absurd h hm⟩
    obtain ⟨_, _, e⟩ := setMode_changes .silent
      (if s.arb.part = .won then { s with line := { s.line with handed := none, tx := none }
                                          arb := { s.arb with pendingStart := none } }
       else { s with line := { s.line with handed := none, tx := none } })
    dsimp only at e ⊢
    rw [e]
    split
    · exact ⟨rfl, rfl⟩
    · exact ⟨rfl, rfl⟩

theorem countReadBackFailure (s : State) : StaysQuiet s (countReadBackFailure s) := by
  have h₁ : StaysQuiet s
      { s with timer := { s.timer with failedInRound := true, readBackCount := s.timer.readBackCount + 1 } } := of_eq rfl rfl
  unfold Machine.countReadBackFailure
  dsimp only
  repeat' split
  · exact refl s
  · exact h₁.trans (goSilent _)
  · exact h₁

theorem failReadBack (t : Transmission) (s : State) : StaysQuiet s (failReadBack t s) := by
  have h₁ : StaysQuiet s { s with line := { s.line with tx := none } } := of_mode Iff.rfl (.inl rfl) (.inr rfl)
  have h₂ := h₁.trans (countReadBackFailure _)
  unfold Machine.failReadBack
  dsimp only
  split
  · exact h₂
  · exact (h₂.trans (of_eq (t := dropStart _) rfl rfl)).trans (releaseRealignment _)

theorem alignMode (b : Bool) (s : State) : StaysQuiet s (alignMode b s) := by
  have hl : (Machine.alignMode b s).line = s.line := by
    obtain ⟨_, _, e⟩ := alignMode_changes b s
    rw [e]
  refine of_mode ?_ (.inl (by rw [hl])) (.inl (by rw [hl]))
  unfold Machine.alignMode rejoin
  split
  · rename_i hm
    rw [setMode_mode, hm]
    simp
  · split <;> exact Iff.rfl

theorem acceptAnnouncement (a : Announcement) (age : Nat) (s : State) : StaysQuiet s (acceptAnnouncement a age s) := by
  have h₁ : StaysQuiet s (chooseReference (applyAnnouncement a s)) := of_eq rfl rfl
  unfold Machine.acceptAnnouncement
  extract_lets first s₁ s₂ s₃
  have h₂ : StaysQuiet s s₂ := by
    unfold s₂
    split
    · exact h₁.trans (realignOrHold _ _ _ _)
    · exact h₁
  exact (h₂.trans (alignMode first s₂)).trans (of_eq rfl rfl)

theorem duplicateHeard (s : State) : StaysQuiet s (duplicateHeard s) := by
  unfold Machine.duplicateHeard
  split
  · exact goSilent s
  · exact refl s

theorem offerFrame (x : Assembly) (s : State) : StaysQuiet s (offerFrame x s) := by
  unfold Machine.offerFrame
  split
  · unfold offerAnnouncement
    dsimp only
    repeat' split
    · exact duplicateHeard s
    · exact refl s
    · exact refl s
    · exact acceptAnnouncement _ _ s
  · obtain ⟨_, e⟩ := applyConfirmation_changes (parseConfirmation x.chars) s
    unfold offerConfirmation
    dsimp only
    rw [e]
    split
    · refine trans ?_ (duplicateHeard _)
      exact of_eq rfl rfl
    · exact of_eq rfl rfl

theorem setCable (c : Cable) (x : CableState) (s : State) : StaysQuiet s (setCable c x s) := by
  cases c
  · exact of_mode Iff.rfl (.inl rfl) (.inl rfl)
  · exact of_mode Iff.rfl (.inl rfl) (.inl rfl)

theorem checkActiveFrame (cs : List Byte) (s : State) : StaysQuiet s (checkActiveFrame cs s) := by
  rw [checkActiveFrame_eq]
  exact of_mode Iff.rfl (.inl rfl) (.inl rfl)

theorem checkStandbyFrame (f : Option (List Byte)) (s : State) : StaysQuiet s (checkStandbyFrame f s) := by
  unfold Machine.checkStandbyFrame
  dsimp only
  split
  · exact of_mode Iff.rfl (.inl rfl) (.inl rfl)
  · exact refl s

theorem failedArrival (c : Cable) (s : State) : StaysQuiet s (failedArrival c s) := by
  unfold Machine.failedArrival
  split
  · exact refl s
  · exact checkStandbyFrame _ s

theorem validArrival (c : Cable) (x : Assembly) (s : State) : StaysQuiet s (validArrival c x s) := by
  unfold Machine.validArrival
  by_cases ha : s.line.active = c
  · simp only [ha, decide_true, if_true]
    exact (offerFrame x s).trans ((setCable c _ _).trans (checkActiveFrame _ _))
  · simp only [ha, decide_false, Bool.false_eq_true, if_false]
    exact (setCable c _ _).trans (checkStandbyFrame _ _)

theorem arriveFrame (c : Cable) (s : State) : StaysQuiet s (arriveFrame c s) := by
  unfold Machine.arriveFrame
  split
  · exact refl s
  · split
    · refine (setCable c { s.line.cable c with assembly := none } s).trans ?_
      unfold judgeFrame
      repeat' split
      · exact failedArrival c _
      · exact validArrival c _ _
      · exact (setCable c _ _).trans (failedArrival c _)
    · exact refl s

theorem finishTransmission (t : Transmission) (s : State) : StaysQuiet s (finishTransmission t s) := by
  have h₁ : StaysQuiet s (checkOwnFrame t { s with line := { s.line with tx := none } }) := by
    have h₀ : StaysQuiet s { s with line := { s.line with tx := none } } := of_mode Iff.rfl (.inl rfl) (.inr rfl)
    unfold checkOwnFrame
    dsimp only
    split
    · exact (h₀.trans (checkActiveFrame _ _)).trans (checkStandbyFrame _ _)
    · exact h₀.trans (checkActiveFrame _ _)
  unfold Machine.finishTransmission
  dsimp only
  split
  · exact h₁
  · exact h₁.trans (of_eq rfl rfl)

theorem takeOrDropStart (s : State) : StaysQuiet s (takeOrDropStart s) := by
  have h₁ : StaysQuiet s (finishConfirmation s) := by
    unfold finishConfirmation
    split
    · split
      · exact finishTransmission _ s
      · exact refl s
    · exact refl s
  have start (x : State) : StaysQuiet x (takeStart x) := by
    obtain ⟨_, _, _, e⟩ := takeStart_changes x
    rw [e]
    exact of_eq rfl rfl
  have seen (x : State) (w : Option Word16) : StaysQuiet x { x with table := { x.table with ownStartSeen := w } } :=
    of_eq rfl rfl
  have arb (x : State) (a : Arbiter) : StaysQuiet x { x with arb := a } := of_eq rfl rfl
  unfold Machine.takeOrDropStart
  dsimp only
  split
  · exact h₁.trans ((seen _ _).trans ((start _).trans ((arb _ _).trans (releaseRealignment _))))
  · exact h₁

/-- A frame begins at a station that is not SILENT alone. -/
theorem beginTransmission {s : State} (h : s.timer.mode ≠ .silent) (kind : FrameKind) (cs : List Byte) :
    StaysQuiet s (beginTransmission kind cs s) :=
  ⟨fun _ hs => absurd hs h, fun hs => absurd hs h⟩

/-- A frame that goes on had begun. -/
theorem of_tx {s : State} (h : s.line.tx.isSome = true) (x : Option Transmission) :
    StaysQuiet s { s with line := { s.line with tx := x } } := by
  refine ⟨fun hq hs => ?_, id⟩
  simp [(hq hs).2] at h

theorem lineWork {i : Instr} {f : State → State} (hi : lineWork i = some f) (s : State) : StaysQuiet s (f s) := by
  cases i <;> cases hi
  case ownSlotStart =>
    unfold composeAnnouncement
    split
    · rename_i h
      have hm : s.timer.mode ≠ .silent := by
        intro hm
        simp [State.announces, hm] at h
      exact ⟨fun _ hs => absurd hs hm, fun hs => absurd hs hm⟩
    · exact refl s
  case announcementTransmitBegin =>
    unfold beginAnnouncement
    split
    · rename_i cs hcs
      exact ⟨fun hq hs => by simp [(hq hs).1] at hcs, id⟩
    · exact refl s
  case transmissionEnd =>
    unfold endTransmission
    repeat' split
    · exact finishTransmission _ s
    · exact refl s
    · exact refl s
  case characterComplete c r =>
    unfold receiveCharacter
    dsimp only
    split
    · exact refl s
    · split
      · exact refl s
      · exact setCable c _ s
  case frameTruncated c => exact setCable c _ s
  case decoderInputReleased c =>
    unfold releaseDecoder
    split
    · exact refl s
    · exact setCable c _ s
  all_goals
    simp only [openWindow, holdDecoders, readArbitrationBit, endLastBit, endWindow, timeOutComparison, endPulse,
      seeDrivenLevel, markNotFree]
    repeat' split
    all_goals exact of_mode Iff.rfl (.inl rfl) (.inl rfl)

theorem roundWork {i : Instr} {f : State → State} (hi : roundWork i = some f) (s : State) : StaysQuiet s (f s) := by
  cases i <;> cases hi
  case roundEnd => exact (roundEndWork s).trans (of_eq rfl rfl)
  case confirmationBegin =>
    unfold beginConfirmation
    split
    · exact refl s
    · split
      · split
        · exact releaseRealignment s
        · exact beginTransmission ‹_› _ _
      · exact releaseRealignment s
  case startTakenOrDropped => exact takeOrDropStart s
  case characterReadBack =>
    unfold readBackCharacter
    split
    · exact refl s
    · rename_i t ht
      split
      · exact refl s
      · dsimp only
        split
        · exact of_tx (by simp [ht]) _
        · exact failReadBack t s
  case foreignEdgeOnFrame =>
    unfold foreignEdge
    split
    · exact failReadBack _ s
    · exact refl s
  case frameArrival c _ => exact arriveFrame c s

theorem eventWork {i : Instr} {f : State → State} (hi : eventWork i = some f) (s : State) : StaysQuiet s (f s) := by
  obtain hl | hp | hr := eventWork_cases hi
  · exact lineWork hl s
  · have hl : (f s).line = s.line := by
      obtain ⟨_, _, _, _, _, _, _, e⟩ := pumpWork_changes hp s
      rw [e]
    refine of_eq ?_ hl
    obtain rfl | ⟨g, p, r, rfl⟩ | ⟨_, _, _, _, e⟩ := pumpWork_cases hp s
    · cases hp
      unfold takeSettlePoint
      split
      · rfl
      · obtain ⟨_, _, _, _, e⟩ := settleWork_changes { s with timer := { s.timer with settleTaken := true } }
        rw [e]
    · cases hp
      obtain ⟨_, _, _, _, _, e⟩ := endCountingWindow_changes g p r s
      rw [e]
    · rw [e]
  · exact roundWork hr s

end StaysQuiet

/-! ### The statement -/

/-- A station in SILENT has no valid start, and so contends no more once a start has been watched (R69). -/
theorem silenceHolds_follow {s : State} (h : s.quiet) : (follow s).silenceHolds := by
  intro hm
  rw [follow_timer] at hm
  obtain ⟨h₁, h₂⟩ := h hm
  rw [follow_line]
  refine ⟨h₁, h₂, fun hc => ?_⟩
  obtain ⟨k, _, _, _, _, _, hmember, _⟩ := follow_contenderIsValid s hc
  rw [follow_timer, hm] at hmember
  cases hmember

theorem State.quiet_of_silenceHolds {s : State} (h : s.silenceHolds) : s.quiet := fun hm => ⟨(h hm).1, (h hm).2.1⟩

/-- A service command leaves the round timer and the frames of the part's own, and has no start contend. -/
theorem serviceWork_silence {i : Instr} {w : State → State × Answer} (hi : serviceWork i = some w) (s : State) :
    (w s).1.timer = s.timer ∧ (w s).1.line.handed = s.line.handed ∧ (w s).1.line.tx = s.line.tx ∧
      ((w s).1.arb.part = .contending → s.arb.part = .contending) := by
  cases i <;> cases hi
  case holdPump k =>
    unfold workHoldPump
    repeat' split
    · exact ⟨rfl, rfl, rfl, id⟩
    · rename_i j _ _
      obtain ⟨_, _, _, e⟩ := holdPump_changes j s
      refine ⟨by rw [follow_timer, e], by rw [follow_line, e], by rw [follow_line, e], fun hc => ?_⟩
      rw [follow_arb, e] at hc
      split at hc
      · cases hc
      · exact hc
    · exact ⟨rfl, rfl, rfl, id⟩
  case readStation | readEntry | readPump | readProbe | readCables | readFlagChanges | clearCounters | unknown =>
    exact ⟨rfl, rfl, rfl, id⟩
  all_goals
    simp only [workWriteStep, workWritePointers, workReleasePump, releasePump, workClearFault,
      clearFault, workSetRunMinutes, workSelectCable, setActive, abortCheck, workStartCheck, workForgetEntry,
      workClearAttention, workSetAttentionMask]
    repeat' split
    all_goals exact ⟨rfl, rfl, rfl, id⟩

theorem silenceHolds_reset : State.reset.silenceHolds := by
  unfold State.silenceHolds
  decide

theorem silenceHolds_stepKeeps : StepKeeps State.silenceHolds where
  outside _ _ _ _ _ h := h
  cold _ _ := silenceHolds_reset
  warm _ _ := silenceHolds_reset
  resetEnd _ _ _ h := h
  strapFault _ _ _ h := h
  begins _ _ _ h := h
  event _ f hi s _ h := silenceHolds_follow ((StaysQuiet.eventWork hi s).1 (State.quiet_of_silenceHolds h))
  service _ _ hi s _ h := by
    obtain ⟨ht, h₁, h₂, hc⟩ := serviceWork_silence hi s
    intro hm
    rw [ht] at hm
    obtain ⟨q₁, q₂, q₃⟩ := h hm
    exact ⟨h₁.trans q₁, h₂.trans q₂, fun hp => q₃ (hc hp)⟩
  pass s h := by
    unfold advance
    dsimp only
    split
    · exact h
    · exact h
    · exact h
    · intro hm
      obtain ⟨h₁, h₂, h₃⟩ := h hm
      exact ⟨h₁, by simp [Line.pass, h₂], h₃⟩

/-- A running SILENT station is SILENT after a command, or in a reset. -/
theorem exec_silent {i : Instr} {s t : State} (hc : s.cond = .running) (hm : s.timer.mode = .silent)
    (ht : exec i s = .next t) : t.timer.mode = .silent ∨ ∃ κ, t.cond = .reset κ := by
  obtain ⟨f, hf⟩ | ⟨w, hw⟩ | rfl | ⟨n, rfl⟩ | rfl | ⟨l, rfl⟩ | rfl | rfl := instr_cases i
  · rw [exec_of_eventWork hf] at ht
    cases ht
    obtain ⟨_, e⟩ := eventPins_changes i s
    have hc' : (eventPins i s).cond = .running := by rw [e]; exact hc
    have hm' : (eventPins i s).timer.mode = .silent := by rw [e]; exact hm
    rw [whenRunning_of_running hc', follow_timer]
    exact .inl ((StaysQuiet.eventWork hf _).2 hm')
  · obtain ⟨t', e, ⟨_, rfl⟩ | ⟨_, a, rfl⟩⟩ := exec_service_cases hw s
    all_goals
      rw [e] at ht
      cases ht
    · exact .inl hm
    · refine .inl ?_
      rw [giveAnswer_timer, (serviceWork_silence hw _).1]
      exact hm
  · cases ht
    exact .inr ⟨.cold, rfl⟩
  · cases ht
    rw [hc]
    split
    · exact .inl hm
    · exact .inr ⟨.warm, rfl⟩
  · cases ht
    rw [hc]
    exact .inl hm
  · cases ht
    rw [hc]
    exact .inl hm
  · cases ht
    rw [hc]
    exact .inl hm
  · cases ht
    exact .inl hm

/-- Settles O59: nothing but a reset leaves SILENT, no frame begins in it, and a station that goes to it drops what it had to
send. -/
theorem silenceLastsUntilAReset : Obligations.SilenceLastsUntilAReset := by
  refine ⟨fun _ _ hs ht => silenceHolds_stepKeeps.step hs ht, fun s t hc hm ht => ?_⟩
  unfold step at ht
  split at ht
  · rename_i rest _
    exact exec_silent (s := { s with pending := rest }) hc hm ht
  · cases ht
    unfold idle
    split
    · exact .inl hm
    · refine .inl ?_
      unfold advance
      rw [hc]
      exact hm

end Sys2Proof.Machine
end

section
/-! Profiles, players and pumps stay sound (R80 to R101, R105 to R115). A pump with its player and its speed reference is looked at
as one unit: an operation on a pump is sound where it leaves that unit sound, and the other units as they were. -/

namespace Sys2Proof.Machine

open Sys2Proof

set_option Elab.async false

/-! ### Records -/

/-- A pump record, a player and a duty that are sound together. -/
def Pump.fits (p : Pump) (q : Player) (d : Nat) : Prop :=
  q.sound ∧ p.sound ∧ (p.state = .rampUp ∨ p.state = .rampDown → q.playing = true) ∧
    (p.state ≠ .rampUp → p.state ≠ .running → p.state ≠ .rampDown → q.playing = false ∧ q.speed = 0 ∧ d = 0)

theorem PumpState.runs_iff (a : PumpState) : a.runs = true ↔ a = .rampUp ∨ a = .running := by
  cases a <;> decide

theorem Player.idle_sound {v : Nat} (h : v ≤ 100) : (Player.idle v).sound := by
  refine ⟨h, Nat.zero_lt_succ 63, .inr ?_⟩
  simp [Player.idle]

theorem Pump.countSecond_bounds {p : Pump} (h : p.accumulator ≤ 59 ∧ p.runMinutes ≤ 16777215) :
    p.countSecond.accumulator ≤ 59 ∧ p.countSecond.runMinutes ≤ 16777215 := by
  unfold Pump.countSecond
  split
  · exact ⟨Nat.zero_le _, Nat.min_le_left _ _⟩
  · exact ⟨by dsimp only; omega, h.2⟩

theorem Pump.countDue_bounds {p : Pump} (h : p.accumulator ≤ 59 ∧ p.runMinutes ≤ 16777215) :
    p.countDue.accumulator ≤ 59 ∧ p.countDue.runMinutes ≤ 16777215 := by
  unfold Pump.countDue
  split
  · exact Pump.countSecond_bounds h
  · exact h

/-- The whole second counted writes the minutes, the accumulator and the second timer alone. -/
theorem Pump.countSecond_changes (p : Pump) :
    ∃ a m, p.countSecond = { p with accumulator := a, runMinutes := m, secondTimer := some 1000000 } := by
  unfold Pump.countSecond
  split <;> exact ⟨_, _, rfl⟩

theorem Pump.sound_bounds {p : Pump} (h : p.sound) : p.accumulator ≤ 59 ∧ p.runMinutes ≤ 16777215 := by
  obtain ⟨_, _, _, _, _, ha, hm⟩ := h
  exact ⟨ha, hm⟩

theorem Pump.cause_eq_none {p : Pump} (h : p.sound) (hs : p.state ≠ .faulted) : p.cause = none := by
  obtain ⟨hc, _⟩ := h
  simpa [hs] using hc

theorem Pump.primeTimer_eq_none {p : Pump} (h : p.sound) (hs : p.state ≠ .priming) : p.primeTimer = none := by
  obtain ⟨_, hp, _⟩ := h
  simpa [hs] using hp

theorem Pump.restTimer_eq_none {p : Pump} (h : p.sound) (hs : p.state ≠ .resting) : p.restTimer = none := by
  obtain ⟨_, _, hr, _⟩ := h
  simpa [hs] using hr

@[simp] theorem Pump.leaveRun_cause (p : Pump) : p.leaveRun.cause = p.cause := by
  simp [leaveRun_eq]

/-- A pump that rests is sound whatever run it leaves, as its cause is gone. -/
theorem Pump.toResting_fits {p : Pump} (hb : p.accumulator ≤ 59 ∧ p.runMinutes ≤ 16777215) (hc : p.cause = none) :
    p.toResting.fits (Player.idle 0) 0 := by
  obtain ⟨ha, hm⟩ := Pump.countDue_bounds hb
  refine ⟨Player.idle_sound (Nat.zero_le _), ?_, ?_, ?_⟩
  · simpa [Pump.sound, Pump.toResting, hc, leaveRun_eq] using ⟨ha, hm⟩
  · simp [Pump.toResting]
  · simp [Player.idle]

theorem Pump.toFaulted_fits {p : Pump} (h : p.sound) (c : FaultCause) : (p.toFaulted c).fits (Player.idle 0) 0 := by
  obtain ⟨ha, hm⟩ := Pump.countDue_bounds (Pump.sound_bounds h)
  refine ⟨Player.idle_sound (Nat.zero_le _), ?_, ?_, ?_⟩
  · simpa [Pump.sound, Pump.toFaulted, Pump.leaveRun] using ⟨ha, hm⟩
  · simp [Pump.toFaulted]
  · simp [Player.idle]

theorem Pump.toRampDown_sound {p : Pump} (h : p.sound) (hr : p.state.runs = true) :
    ({ p.leaveRun with state := .rampDown } : Pump).sound := by
  obtain ⟨ha, hm⟩ := Pump.countDue_bounds (Pump.sound_bounds h)
  have hc : p.cause = none := Pump.cause_eq_none h (by rintro e; simp [e, PumpState.runs] at hr)
  have hp : p.primeTimer = none := Pump.primeTimer_eq_none h (by rintro e; simp [e, PumpState.runs] at hr)
  have ht : p.restTimer = none := Pump.restTimer_eq_none h (by rintro e; simp [e, PumpState.runs] at hr)
  simp only [leaveRun_eq]
  simpa [Pump.sound, hc, hp, ht] using ⟨ha, hm⟩

theorem Pump.toRampUp_sound {p : Pump} (h : p.sound) (hs : p.state = .priming) : p.toRampUp.sound := by
  obtain ⟨ha, hm⟩ := Pump.sound_bounds h
  have hc : p.cause = none := Pump.cause_eq_none h (by rw [hs]; decide)
  have ht : p.restTimer = none := Pump.restTimer_eq_none h (by rw [hs]; decide)
  simpa [Pump.sound, Pump.toRampUp, hc, ht] using ⟨ha, hm⟩

theorem Pump.toRunning_sound {p : Pump} (h : p.sound) (hs : p.state = .rampUp) :
    ({ p with state := .running } : Pump).sound := by
  obtain ⟨hc, hp, ht, _, hmiss, ha, hm⟩ := h
  simp only [hs, reduceCtorEq, iff_false] at hc hp ht
  simp only [Pump.sound, reduceCtorEq, iff_false]
  exact ⟨hc, hp, ht, fun _ => .inr trivial, hmiss, ha, hm⟩

/-- A sound record of a pump in no run, its state changed for one of HELD and IDLE, with the timers gone. -/
theorem Pump.toStill_sound {a : PumpState} (ha : a = .held ∨ a = .idle) (hold : Bool) {p : Pump} (hp : p.sound)
    (hs : p.state = .resting ∨ p.state = .idle) :
    ({ p with state := a, holdPending := hold, restTimer := none } : Pump).sound := by
  have hc : p.cause = none := Pump.cause_eq_none hp (by rcases hs with e | e <;> simp [e])
  have ht : p.primeTimer = none := Pump.primeTimer_eq_none hp (by rcases hs with e | e <;> simp [e])
  obtain ⟨_, _, _, hrun, hmiss, hacc, hm⟩ := hp
  have hnot : ¬ (p.state = .rampUp ∨ p.state = .running) := by rcases hs with e | e <;> simp [e]
  refine ⟨?_, ?_, ?_, fun hr => absurd (hrun hr) hnot, hmiss, hacc, hm⟩
  all_goals rcases ha with rfl | rfl <;> simp [hc, ht]

/-! ### Plays -/

/-- The steps of a sound profile memory keep a PLAYING player sound. -/
theorem Player.beginStep_sound {mem : Vector ProfileStep 64} (hm : ∀ i : Fin 64, (mem[i]).speed ≤ 100) {q : Player} {t : Nat}
    (hp : q.playing = true) (hmode : q.mode.isSome = true) (hstart : q.start.isSome = true) (ht : q.tick = some t)
    (hlo : 100000 ≤ t) (hhi : t ≤ 800000) (hr : q.runaway < 64) (i : Fin 64) : (q.beginStep mem i).sound :=
  ⟨hm i, hr, .inl ⟨hp, hmode, hstart, rfl, rfl, t, ht, hlo, hhi⟩⟩

theorem Player.beginPlay_sound {mem : Vector ProfileStep 64} (hm : ∀ i : Fin 64, (mem[i]).speed ≤ 100) {rate : Nat}
    (hlo : 1 ≤ rate) (hhi : rate ≤ 8) (m : PlayMode) (i : Fin 64) : (Player.beginPlay mem rate m i).sound :=
  Player.beginStep_sound hm rfl rfl rfl rfl (by omega) (by omega) (Nat.zero_lt_succ 63) i

/-- The completion of a step goes on with a sound play, or leaves an IDLE player that holds a speed (R111, R112, R115). -/
theorem Player.complete_cases {mem : Vector ProfileStep 64} (hm : ∀ i : Fin 64, (mem[i]).speed ≤ 100) {q : Player}
    (hq : q.sound) (hp : q.playing = true) (cur : Fin 64) :
    (∃ q', q.complete mem cur = .goesOn q' ∧ q'.sound ∧ q'.playing = true) ∨
      (∃ v, v ≤ 100 ∧ q.complete mem cur = .ends (Player.idle v)) ∨ q.complete mem cur = .runaway (Player.idle 0) := by
  obtain ⟨hv, hr, ⟨_, hmode, hstart, _, _, t, ht, hlo, hhi⟩ | ⟨hn, _⟩⟩ := hq
  · unfold Player.complete
    split
    · split
      · exact .inl ⟨_, rfl, Player.beginStep_sound (q := { q with runaway := 0 }) hm hp hmode hstart ht hlo hhi (Nat.zero_lt_succ 63) _, hp⟩
      · exact .inr (.inl ⟨_, hv, rfl⟩)
    · split
      · exact .inr (.inl ⟨_, hv, rfl⟩)
      · split
        · exact .inr (.inr rfl)
        · exact .inl ⟨_, rfl, Player.beginStep_sound (q := { q with runaway := q.runaway + 1 }) hm hp hmode hstart ht hlo hhi
            (Nat.lt_of_not_le ‹_›) _, hp⟩
  · rw [hp] at hn
    cases hn

/-! ### Units -/

/-- Pump `k` with its player and its speed reference is sound. -/
def State.unitFits (s : State) (k : PumpIx) : Prop := (s.pump k).fits (s.player k) s.drives.duty[k]

/-- The profiles and every unit but that of pump `k` are sound. -/
def State.fitsBut (s : State) (k : PumpIx) : Prop := s.profilesSound ∧ ∀ j, k ≠ j → s.unitFits j

/-- The profiles and every unit are sound. -/
def State.unitsSound (s : State) : Prop := s.profilesSound ∧ ∀ k, s.unitFits k

theorem State.pumpsSound_iff (s : State) :
    s.pumpsSound ↔ s.unitsSound ∧ (s.cond ≠ .running → ∀ k : PumpIx, s.pump k = Pump.reset (s.pump k).runMinutes) :=
  and_assoc.symm

theorem State.unitsSound_iff (s : State) (k : PumpIx) : s.unitsSound ↔ s.fitsBut k ∧ s.unitFits k := by
  refine ⟨fun h => ⟨⟨h.1, fun j _ => h.2 j⟩, h.2 k⟩, fun h => ⟨h.1.1, fun j => ?_⟩⟩
  by_cases hj : k = j
  · exact hj ▸ h.2
  · exact h.1.2 j hj

/-- What an update of the unit of pump `k` leaves of the others. -/
theorem fitsBut_of_same {s t : State} {k : PumpIx} (h : s.fitsBut k) (hp : t.profile = s.profile)
    (hq : t.pointers = s.pointers)
    (ho : ∀ j, k ≠ j → t.pump j = s.pump j ∧ t.player j = s.player j ∧ t.drives.duty[j] = s.drives.duty[j]) : t.fitsBut k := by
  unfold State.fitsBut State.profilesSound at h ⊢
  rw [hp, hq]
  refine ⟨h.1, fun j hj => ?_⟩
  obtain ⟨e₁, e₂, e₃⟩ := ho j hj
  unfold State.unitFits
  rw [e₁, e₂, e₃]
  exact h.2 j hj

theorem fitsBut_setPump {s : State} {k : PumpIx} (h : s.fitsBut k) (p : Pump) : (s.setPump k p).fitsBut k :=
  fitsBut_of_same h rfl rfl fun j hj => ⟨by simp [hj], rfl, rfl⟩

theorem fitsBut_setPlayer {s : State} {k : PumpIx} (h : s.fitsBut k) (q : Player) : (s.setPlayer k q).fitsBut k :=
  fitsBut_of_same h rfl rfl fun j hj => ⟨rfl, by simp [hj], rfl⟩

theorem fitsBut_dropDrive {s : State} {k : PumpIx} (h : s.fitsBut k) : (dropDrive k s).fitsBut k :=
  fitsBut_of_same h rfl rfl fun j hj => ⟨rfl, rfl, by simp [dropDrive, PumpIx.val_ne (Ne.symm hj)]⟩

/-- A pump record that fits the player and the duty that stand. -/
theorem setPump_fits {s : State} {k : PumpIx} (h : s.fitsBut k) {p : Pump} (hp : p.fits (s.player k) s.drives.duty[k]) :
    (s.setPump k p).unitsSound := by
  refine (State.unitsSound_iff _ k).mpr ⟨fitsBut_setPump h p, ?_⟩
  simpa [State.unitFits, State.setPump_drives] using hp

theorem setPlayer_fits {s : State} {k : PumpIx} (h : s.fitsBut k) {q : Player} (hq : (s.pump k).fits q s.drives.duty[k]) :
    (s.setPlayer k q).unitsSound := by
  refine (State.unitsSound_iff _ k).mpr ⟨fitsBut_setPlayer h q, ?_⟩
  simpa [State.unitFits] using hq

/-- A pump is cut off: record, player and speed reference go at once. -/
theorem cutOff_fits {s : State} {k : PumpIx} (h : s.fitsBut k) {p : Pump} (hp : p.fits (Player.idle 0) 0) :
    (dropDrive k (cutPlay k (s.setPump k p))).unitsSound := by
  refine (State.unitsSound_iff _ k).mpr ⟨fitsBut_dropDrive (fitsBut_setPlayer (fitsBut_setPump h p) _), ?_⟩
  have hq : (dropDrive k (cutPlay k (s.setPump k p))).player k = Player.idle 0 := State.player_setPlayer_self k _ _
  have hd : (dropDrive k (cutPlay k (s.setPump k p))).drives.duty[k] = 0 := Vector.getElem_set_self _
  have hs : (dropDrive k (cutPlay k (s.setPump k p))).pump k = p := State.pump_setPump_self k p s
  unfold State.unitFits
  rwa [hs, hq, hd]

/-- A pump begins a play. -/
theorem beginPlay_fits {s : State} {k : PumpIx} (h : s.fitsBut k) (hp : (s.pump k).sound)
    (hs : (s.pump k).state = .rampUp ∨ (s.pump k).state = .running ∨ (s.pump k).state = .rampDown) (m : PlayMode) (i : Fin 64) :
    (beginPlay k m i s).unitsSound := by
  obtain ⟨hsteps, hrates⟩ := h.1
  obtain ⟨hlo, hhi⟩ := hrates k
  refine setPlayer_fits h ⟨Player.beginPlay_sound (fun i => (hsteps i).1) hlo hhi m i, hp, fun _ => rfl, ?_⟩
  intro h₁ h₂ h₃
  exact absurd hs (by simp [h₁, h₂, h₃])

end Sys2Proof.Machine
end

section
/-! Every step keeps profiles, players and pumps sound: the operations of the pump controllers unit by unit, then the events, the
commands and the resets. -/

namespace Sys2Proof.Machine

open Sys2Proof

set_option Elab.async false

/-! ### The pump controllers -/

section
variable {s : State} {k : PumpIx}

theorem enterResting_fits (h : s.fitsBut k)
    (hb : (s.pump k).accumulator ≤ 59 ∧ (s.pump k).runMinutes ≤ 16777215) (hc : (s.pump k).cause = none) :
    (enterResting k s).unitsSound :=
  cutOff_fits h (Pump.toResting_fits hb hc)

theorem enterResting_of_sound (h : s.fitsBut k) (hp : (s.pump k).sound) (hs : (s.pump k).state ≠ .faulted) :
    (enterResting k s).unitsSound :=
  enterResting_fits h (Pump.sound_bounds hp) (Pump.cause_eq_none hp hs)

theorem faultPump_fits (h : s.fitsBut k) (hp : (s.pump k).sound) (c : FaultCause) : (faultPump k c s).unitsSound :=
  cutOff_fits h (Pump.toFaulted_fits hp c)

theorem enterRampDown_fits (h : s.fitsBut k) (hp : (s.pump k).sound) (hr : (s.pump k).state.runs = true) :
    (enterRampDown k s).unitsSound := by
  refine beginPlay_fits (fitsBut_setPump h _) ?_ (.inr (.inr ?_)) _ _
  · rw [State.pump_setPump_self]
    exact Pump.toRampDown_sound hp hr
  · rw [State.pump_setPump_self]

theorem enterRampUp_fits (h : s.fitsBut k) (hp : (s.pump k).sound) (hs : (s.pump k).state = .priming) :
    (enterRampUp k s).unitsSound := by
  refine beginPlay_fits (fitsBut_setPump h _) ?_ (.inl ?_) _ _
  · rw [State.pump_setPump_self]
    exact Pump.toRampUp_sound hp hs
  · rw [State.pump_setPump_self]
    rfl

theorem enterRunning_fits (h : s.fitsBut k) (hp : (s.pump k).sound) (hq : (s.player k).sound)
    (hs : (s.pump k).state = .rampUp) : (enterRunning k s).unitsSound := by
  unfold enterRunning
  dsimp only
  have hr : ((s.setPump k { s.pump k with state := .running }).pump k).state = .running := by rw [State.pump_setPump_self]
  split
  · refine beginPlay_fits (fitsBut_setPump h _) ?_ (.inr (.inl hr)) _ _
    rw [State.pump_setPump_self]
    exact Pump.toRunning_sound hp hs
  · exact setPump_fits h ⟨hq, Pump.toRunning_sound hp hs, by simp, by simp⟩

end

section
variable {s : State} (h : s.unitsSound) (k : PumpIx)
include h

theorem fitsBut_of_unitsSound : s.fitsBut k := ((State.unitsSound_iff s k).mp h).1

theorem pump_sound : (s.pump k).sound := (h.2 k).2.1

theorem player_sound : (s.player k).sound := (h.2 k).1

/-- A pump record in the same state, sound itself, fits where the old one did. -/
theorem setPump_same_fits {p : Pump} (hp : p.sound) (hs : p.state = (s.pump k).state) : (s.setPump k p).unitsSound := by
  obtain ⟨hq, _, hr⟩ := h.2 k
  refine setPump_fits (fitsBut_of_unitsSound h k) ⟨hq, hp, ?_⟩
  rw [hs]
  exact hr

/-- Between states in which no play belongs to the pump, a sound record fits. -/
theorem setPump_still_fits {p : Pump} (hp : p.sound)
    (hs : (s.pump k).state ≠ .rampUp ∧ (s.pump k).state ≠ .running ∧ (s.pump k).state ≠ .rampDown)
    (ht : p.state ≠ .rampUp ∧ p.state ≠ .rampDown) : (s.setPump k p).unitsSound := by
  obtain ⟨hq, _, _, hstill⟩ := h.2 k
  refine setPump_fits (fitsBut_of_unitsSound h k) ⟨hq, hp, fun hr => ?_, fun _ _ _ => hstill hs.1 hs.2.1 hs.2.2⟩
  exact absurd hr (by simp [ht.1, ht.2])

theorem urgentStop_fits : (urgentStop k s).unitsSound := by
  unfold urgentStop
  split
  · rename_i ha
    exact enterResting_of_sound (fitsBut_of_unitsSound h k) (pump_sound h k) (by rintro e; simp [e, PumpState.active] at ha)
  · exact h

theorem shedStop_fits : (shedStop k s).unitsSound := by
  have hp := pump_sound h k
  have hb := fitsBut_of_unitsSound h k
  unfold shedStop
  split
  · rename_i e
    exact enterResting_of_sound hb hp (by rw [e]; decide)
  · rename_i e
    exact enterRampDown_fits hb hp (by rw [e]; rfl)
  · rename_i e
    exact enterRampDown_fits hb hp (by rw [e]; rfl)
  all_goals exact h

/-- The mark FINISHING stands in RAMP_UP and RUNNING. -/
theorem sound_finishing (hr : (s.pump k).state.runs = true) : ({ s.pump k with finishing := true } : Pump).sound := by
  obtain ⟨hc, hp, ht, _, hmiss, ha, hm⟩ := pump_sound h k
  exact ⟨hc, hp, ht, fun _ => (PumpState.runs_iff _).mp hr, hmiss, ha, hm⟩

theorem markFinishing_fits (hr : (s.pump k).state.runs = true) : (markFinishing k s).unitsSound := by
  have hmark := setPump_same_fits h k (sound_finishing h k hr) rfl
  unfold markFinishing
  split
  · rename_i hpl
    obtain ⟨hq, hp, hplays, _⟩ := hmark.2 k
    rw [State.player_setPump] at hq hplays
    refine setPlayer_fits (fitsBut_of_unitsSound hmark k) ⟨?_, hp, fun _ => ?_, ?_⟩
    · unfold Player.requestFinish
      rw [if_pos hpl]
      obtain ⟨hv, hrun, ⟨_, hmode, hstart, hstep, hleft, htick⟩ | ⟨hn, _⟩⟩ := hq
      · exact ⟨hv, hrun, .inl ⟨hpl, hmode, hstart, hstep, hleft, htick⟩⟩
      · rw [hpl] at hn
        cases hn
    · unfold Player.requestFinish
      rw [if_pos hpl]
      exact hpl
    · rw [State.pump_setPump_self]
      exact fun h₁ h₂ _ => absurd ((PumpState.runs_iff _).mp hr) (not_or.mpr ⟨h₁, h₂⟩)
  · split
    · exact enterRampDown_fits (fitsBut_of_unitsSound h k) (pump_sound h k) hr
    · exact hmark

theorem demandStop_fits (d : Bool) : (demandStop d k s).unitsSound := by
  have run (e : (s.pump k).state.runs = true) :
      (if (s.pump k).finishing then s else if d || (s.pump k).pastMinRun then markFinishing k s else s).unitsSound := by
    split
    · exact h
    · split
      · exact markFinishing_fits h k e
      · exact h
  unfold demandStop
  split
  · rename_i e
    exact enterResting_of_sound (fitsBut_of_unitsSound h k) (pump_sound h k) (by rw [e]; decide)
  · rename_i e
    exact run (by rw [e]; rfl)
  · rename_i e
    exact run (by rw [e]; rfl)
  all_goals exact h

theorem superviseFeedback_fits : (superviseFeedback k s).unitsSound := by
  obtain ⟨hc, hp, ht, hrun, hmiss, ha, hm⟩ := pump_sound h k
  unfold superviseFeedback
  dsimp only
  split
  · rename_i hr
    have hs : (s.pump k).state = .rampUp ∨ (s.pump k).state = .running :=
      (PumpState.runs_iff _).mp (Bool.and_eq_true_iff.mp hr).2
    split
    · exact setPump_same_fits h k ⟨hc, hp, ht, fun _ => hs, Nat.zero_le _, ha, hm⟩ rfl
    · split
      · exact faultPump_fits (fitsBut_of_unitsSound h k) (pump_sound h k) _
      · exact setPump_same_fits h k ⟨hc, hp, ht, fun _ => hs, by dsimp only; omega, ha, hm⟩ rfl
  · exact h

theorem pumpRoundEnd_fits (b : Bool) : (pumpRoundEnd b k s).unitsSound := by
  unfold pumpRoundEnd
  repeat' split
  · exact superviseFeedback_fits h k
  · exact urgentStop_fits h k
  · exact superviseFeedback_fits h k

/-- A start reaches an IDLE pump, whose player and speed reference are at rest. -/
theorem startPump_fits : (startPump k s).unitsSound := by
  unfold startPump
  split
  · rename_i e
    obtain ⟨hc, hp, ht, hrun, hmiss, ha, hm⟩ := pump_sound h k
    have hx : (s.setPump k { s.pump k with state := .priming, primeTimer := some 30000000 }).unitsSound := by
      refine setPump_still_fits h k ?_ (by simp [e]) (by simp)
      simp only [e, reduceCtorEq, iff_false, or_self, imp_false] at hc hp ht hrun
      simpa [Pump.sound, hc, ht] using ⟨by simpa using hrun, hmiss, ha, hm⟩
    dsimp only
    split
    · exact enterRampUp_fits (fitsBut_of_unitsSound hx k) (pump_sound hx k) (by rw [State.pump_setPump_self])
    · exact hx
  · exact h

end

/-! ### The round end and the settle point -/

section
variable {s : State} (h : s.unitsSound)
include h

theorem pumpsRoundEnd_fits (b : Bool) : (pumpsRoundEnd b s).unitsSound :=
  pumpRoundEnd_fits (pumpRoundEnd_fits (pumpRoundEnd_fits (pumpRoundEnd_fits h 0 b) 1 b) 2 b) 3 b

theorem shedUntil_fits (limit fuel : Nat) : (shedUntil limit fuel s).unitsSound := by
  induction fuel generalizing s with
  | zero => exact h
  | succ n ih =>
    unfold shedUntil
    repeat' split
    · exact ih (shedStop_fits h _)
    · exact h
    · exact h

theorem settleStops_fits : (settleStops s).unitsSound := by
  unfold settleStops
  split
  · exact shedUntil_fits h _ _
  · split
    · exact demandStop_fits h _ _
    · exact h

theorem settleWork_fits : (settleWork s).unitsSound := by
  have hx : (settleStops { s with alloc := settleFigures s }).unitsSound := settleStops_fits h
  rw [settleWork_eq]
  generalize settleStops { s with alloc := settleFigures s } = x at hx
  exact hx

theorem takeSettlePoint_fits : (takeSettlePoint s).unitsSound := by
  unfold takeSettlePoint
  split
  · exact h
  · exact settleWork_fits h

theorem syncSampling_fits : (syncSampling s).unitsSound := by
  obtain ⟨_, e⟩ := syncSampling_changes s
  rw [e]
  exact h

theorem follow_fits : (follow s).unitsSound := by
  obtain ⟨_, _, e⟩ := follow_changes s
  rw [e]
  exact h

/-! ### Plays that go on or end -/

/-- A play belongs to RAMP_UP, RUNNING or RAMP_DOWN (R112, R114). -/
theorem state_of_playing (k : PumpIx) (hp : (s.player k).playing = true) :
    (s.pump k).state = .rampUp ∨ (s.pump k).state = .running ∨ (s.pump k).state = .rampDown := by
  obtain ⟨_, _, _, hs⟩ := h.2 k
  by_contra hn
  obtain ⟨h₁, h₂, h₃⟩ : _ ∧ _ ∧ _ := by simpa only [not_or] using hn
  rw [(hs h₁ h₂ h₃).1] at hp
  cases hp

theorem playEnded_fits (k : PumpIx) (hp : (s.player k).playing = true) {v : Nat} (hv : v ≤ 100) :
    (playEnded k (s.setPlayer k (Player.idle v))).unitsSound := by
  have hb := fitsBut_setPlayer (fitsBut_of_unitsSound h k) (Player.idle v)
  have hps := pump_sound h k
  have hi : (Player.idle v).sound := Player.idle_sound hv
  have still := state_of_playing h k hp
  unfold playEnded
  rw [State.pump_setPlayer]
  split
  · rename_i e
    split
    · exact enterRampDown_fits hb hps (by rw [State.pump_setPlayer, e]; rfl)
    · exact enterRunning_fits hb hps (by rw [State.player_setPlayer_self]; exact hi) e
  · rename_i e
    split
    · exact enterRampDown_fits hb hps (by rw [State.pump_setPlayer, e]; rfl)
    · exact setPlayer_fits (fitsBut_of_unitsSound h k) ⟨hi, hps, by simp [e], by simp [e]⟩
  · rename_i e
    exact enterResting_of_sound hb hps (by rw [State.pump_setPlayer, e]; decide)
  all_goals
    rename_i e
    simp [e] at still

theorem playRanAway_fits (k : PumpIx) (hp : (s.player k).playing = true) :
    (playRanAway k (s.setPlayer k (Player.idle 0))).unitsSound := by
  have hb := fitsBut_setPlayer (fitsBut_of_unitsSound h k) (Player.idle 0)
  have fault := faultPump_fits hb (pump_sound h k) .profileFault
  have still := state_of_playing h k hp
  unfold playRanAway
  rw [State.pump_setPlayer]
  split
  · exact fault
  · exact fault
  · exact fault
  all_goals
    rename_i e
    simp [e] at still

theorem stepCompletes_fits (k : PumpIx) : (stepCompletes k s).unitsSound := by
  cases hp : (s.player k).playing with
  | false => rwa [stepCompletes_of_not (.inl hp)]
  | true =>
    cases hs : (s.player k).step with
    | none => rwa [stepCompletes_of_not (.inr hs)]
    | some cur =>
      have done := Player.complete_cases (fun i => (h.1.1 i).1) (player_sound h k) hp cur
      obtain ⟨q, hq, e⟩ | ⟨q, hq, e⟩ | ⟨q, hq, e⟩ := stepCompletes_of_playing hp hs
      all_goals
        rw [hq] at done
        rw [e]
      · obtain ⟨q', e', hs', hp'⟩ | ⟨_, _, e'⟩ | e' := done <;> cases e'
        obtain ⟨_, hps, _, hstill⟩ := h.2 k
        refine setPlayer_fits (fitsBut_of_unitsSound h k) ⟨hs', hps, fun _ => hp', fun h₁ h₂ h₃ => ?_⟩
        rw [(hstill h₁ h₂ h₃).1] at hp
        cases hp
      · obtain ⟨q', e', _, _⟩ | ⟨v, hv, e'⟩ | e' := done <;> cases e'
        exact playEnded_fits h k hp hv
      · obtain ⟨q', e', _, _⟩ | ⟨_, _, e'⟩ | e' := done <;> cases e'
        exact playRanAway_fits h k hp

/-! ### The probes -/

theorem stopLowPumps_fits (b : State) : (stopLowPumps b s).unitsSound := by
  have step (x : State) (k : PumpIx) (hx : x.unitsSound) :
      (if x.sumpLow k && !b.sumpLow k then urgentStop k x else x).unitsSound := by
    split
    · exact urgentStop_fits hx k
    · exact hx
  exact step _ 3 (step _ 2 (step _ 1 (step _ 0 h)))

theorem setGroup_fits (g : ProbeGroup) (r : GaugeGroup) : (setGroup g r s).unitsSound := by
  obtain ⟨_, e⟩ := setGroup_changes g r s
  rw [e]
  exact h

theorem groupReading_fits (g : ProbeGroup) : (groupReading g s).unitsSound := by
  have level : (readLevel g s).unitsSound := by
    obtain ⟨_, _, e⟩ := readLevel_changes g s
    rw [e]
    exact h
  unfold groupReading
  split
  · exact level
  · exact stopLowPumps_fits (s := readSumps (readLevel .polder s)) level _

theorem endScan_fits (g : ProbeGroup) : (endScan g s).unitsSound := by
  unfold endScan
  dsimp only
  have hx := syncSampling_fits (groupReading_fits (setGroup_fits h g { s.gauge.group g with scan := none }) g)
  split
  · exact hx
  · exact hx

theorem doneProbe_fits (g : ProbeGroup) (q : Fin 6) : (doneProbe g q s).unitsSound := by
  unfold doneProbe
  split
  · exact setGroup_fits h _ _
  · exact endScan_fits h g

theorem endCountingWindow_fits (g : ProbeGroup) (p r : Nat) : (endCountingWindow g p r s).unitsSound := by
  cases hc : (s.gauge.group g).scan with
  | none => rwa [endCountingWindow_of_none hc]
  | some c =>
    have hw : (recordWindow g c p r s).unitsSound := by
      obtain ⟨_, e⟩ := recordWindow_changes g c p r s
      rw [e]
      exact h
    cases hj : judgePair c.first (windowCode p r) with
    | half code =>
      rw [endCountingWindow_of_half hc hj]
      exact setGroup_fits hw _ _
    | accepted code =>
      rw [endCountingWindow_of_accepted hc hj]
      exact doneProbe_fits (s := setProbe _ _ (recordWindow g c p r s)) hw _ _
    | dropped =>
      rw [endCountingWindow_of_dropped hc hj]
      unfold dropPair
      dsimp only
      split
      · exact doneProbe_fits (s := setProbe _ _ (recordWindow g c p r s)) hw _ _
      · exact setGroup_fits hw _ _

end

end Sys2Proof.Machine
end

section
/-! Every step keeps profiles, players and pumps sound: the events, the commands, the resets and the passing of time; and the
machine right after reset meets every invariant. -/

namespace Sys2Proof.Machine

open Sys2Proof

set_option Elab.async false

/-! ### Events -/

section
variable {s : State} (h : s.unitsSound) (k : PumpIx)
include h

theorem primeSensed_fits : (primeSensed k s).unitsSound := by
  unfold primeSensed
  split
  · exact enterRampUp_fits (fitsBut_of_unitsSound h k) (pump_sound h k) ‹_›
  · exact h

theorem primeTimerExpires_fits : (primeTimerExpires k s).unitsSound := by
  obtain ⟨hc, _, ht, hrun, hmiss, ha, hm⟩ := pump_sound h k
  unfold primeTimerExpires
  dsimp only
  split
  · split
    · exact faultPump_fits (fitsBut_of_unitsSound h k) (pump_sound h k) _
    · rename_i hs
      exact setPump_same_fits h k ⟨hc, by simp [hs], ht, hrun, hmiss, ha, hm⟩ rfl
  · exact h

theorem feedbackDueExpires_fits (b : Bool) : (feedbackDueExpires k b s).unitsSound := by
  obtain ⟨hc, hp, ht, hrun, hmiss, ha, hm⟩ := pump_sound h k
  unfold feedbackDueExpires
  dsimp only
  split
  · rename_i hf
    have hs := hrun (.inr (.inl hf))
    split
    · split
      · exact setPump_same_fits h k ⟨hc, hp, ht, fun _ => hs, hmiss, ha, hm⟩ rfl
      · exact faultPump_fits (fitsBut_of_unitsSound h k) (pump_sound h k) _
    · exact setPump_same_fits h k ⟨hc, hp, ht, fun _ => hs, hmiss, ha, hm⟩ rfl
  · exact h

theorem minimumRunExpires_fits : (minimumRunExpires k s).unitsSound := by
  obtain ⟨hc, hp, ht, hrun, hmiss, ha, hm⟩ := pump_sound h k
  unfold minimumRunExpires
  dsimp only
  split
  · rename_i hf
    have hs := hrun (.inr (.inr (.inl hf)))
    exact setPump_same_fits h k ⟨hc, hp, ht, fun _ => hs, hmiss, ha, hm⟩ rfl
  · exact h

theorem restTimerExpires_fits : (restTimerExpires k s).unitsSound := by
  obtain ⟨hc, hp, _, hrun, hmiss, ha, hm⟩ := pump_sound h k
  unfold restTimerExpires
  dsimp only
  split
  · split
    · rename_i hs
      split
      · exact setPump_still_fits h k (Pump.toStill_sound (.inl rfl) false (pump_sound h k) (.inl hs)) (by simp [hs]) (by simp)
      · exact setPump_still_fits h k
          (Pump.toStill_sound (.inr rfl) (s.pump k).holdPending (pump_sound h k) (.inl hs)) (by simp [hs]) (by simp)
    · rename_i hs
      exact setPump_same_fits h k ⟨hc, hp, by simp [hs], hrun, hmiss, ha, hm⟩ rfl
  · exact h

theorem secondPasses_fits : (secondPasses k s).unitsSound := by
  obtain ⟨hc, hp, ht, hrun, hmiss, ha, hm⟩ := pump_sound h k
  unfold secondPasses
  dsimp only
  split
  · obtain ⟨ha', hm'⟩ := Pump.countSecond_bounds ⟨ha, hm⟩
    obtain ⟨_, _, e⟩ := Pump.countSecond_changes (s.pump k)
    rw [e] at ha' hm' ⊢
    exact setPump_same_fits h k ⟨hc, hp, ht, hrun, hmiss, ha', hm'⟩ rfl
  · exact setPump_same_fits h k ⟨hc, hp, ht, hrun, hmiss, ha, hm⟩ rfl

end

theorem pumpWork_fits {s : State} (h : s.unitsSound) {i : Instr} {f : State → State} (hi : pumpWork i = some f) :
    (f s).unitsSound := by
  cases i <;> cases hi
  case settlePoint => exact takeSettlePoint_fits h
  case stepCompletion k => exact stepCompletes_fits h k
  case countingWindowEnd g p r => exact endCountingWindow_fits h g p r
  case primeSenseAsserted k => exact primeSensed_fits h k
  case primeTimerExpiry k => exact primeTimerExpires_fits h k
  case feedbackDueExpiry k b => exact feedbackDueExpires_fits h k b
  case minimumRunExpiry k => exact minimumRunExpires_fits h k
  case restTimerExpiry k => exact restTimerExpires_fits h k
  case runSecond k => exact secondPasses_fits h k

/-- The round end and reception write the units through the round end of the pumps and a start alone. -/
theorem unitsSound_roundKeeps : RoundKeeps State.unitsSound where
  timer _ _ h := h
  port _ _ h := h
  free _ _ h := h
  arb _ _ h _ := h
  line _ _ h _ _ := h
  cable s c x h _ := by
    obtain ⟨_, e⟩ := setCable_changes c x s
    rw [e]
    exact h
  lineRoundEnd s h := by
    obtain ⟨_, _, e⟩ := lineRoundEnd_changes s
    rw [e]
    exact h
  restRoundEnd s h := by
    have ht : (tableRoundEnd s).unitsSound := by
      obtain ⟨_, _, e⟩ := tableRoundEnd_changes s
      rw [e]
      exact h
    obtain ⟨_, e⟩ := gaugeRoundEnd_changes (pumpsRoundEnd (stopEnters s (tableRoundEnd s)) (tableRoundEnd s))
    rw [e]
    exact pumpsRoundEnd_fits ht _
  announcement _ _ h := h
  confirmation s c h := by
    obtain ⟨_, e⟩ := applyConfirmation_changes c s
    rw [e]
    exact h
  starts s w _ h := by
    have hw : ({ s with table := { s.table with ownStartSeen := w } } : State).unitsSound := h
    obtain e | ⟨k, _, _, e⟩ := takeStart_cases { s with table := { s.table with ownStartSeen := w } }
    · rw [e]
      exact hw
    · rw [e]
      exact syncSampling_fits (startPump_fits hw k)

theorem eventWork_fits {s : State} (h : s.unitsSound) {i : Instr} {f : State → State} (hi : eventWork i = some f)
    (hc : s.cond = .running) : (f s).unitsSound := by
  obtain hl | hp | hr := eventWork_cases hi
  · obtain ⟨_, _, _, _, e⟩ := lineWork_changes hl s
    rw [e]
    exact h
  · exact pumpWork_fits h hp
  · exact unitsSound_roundKeeps.event hr hc h

/-! ### Commands -/

section
variable {s : State} (h : s.unitsSound)
include h

theorem workWriteStep_fits (ix sp hd m : Byte) : (workWriteStep ix sp hd m s).1.unitsSound := by
  unfold workWriteStep
  split
  · rename_i j e _ _
    split
    · exact h
    · rename_i hr
      split
      · exact h
      · obtain ⟨⟨hsteps, hptr⟩, hu⟩ := h
        obtain ⟨hsp, hhd⟩ := not_or.mp hr
        refine ⟨⟨fun i => ?_, hptr⟩, hu⟩
        dsimp only
        by_cases hij : j.val = i.val
        · have hpos : hd.toNat ≠ 0 := fun hz => hhd (BitVec.eq_of_toNat_eq hz)
          have hlt : hd.toNat < 256 := hd.isLt
          simp only [Fin.getElem_fin, hij, Vector.getElem_set_self]
          omega
        · simp only [Fin.getElem_fin, Vector.getElem_set_ne _ _ hij]
          exact hsteps i
  · exact h

theorem workWritePointers_fits (k u r d q : Byte) : (workWritePointers k u r d q s).1.unitsSound := by
  unfold workWritePointers
  split
  · rename_i j up run down _ _ _ _
    split
    · exact h
    · rename_i hr
      split
      · exact h
      · obtain ⟨⟨hsteps, hptr⟩, hu⟩ := h
        refine ⟨⟨hsteps, fun i => ?_⟩, hu⟩
        dsimp only
        by_cases hij : j.val = i.val
        · simp only [Fin.getElem_fin, hij, Vector.getElem_set_self]
          omega
        · simp only [Fin.getElem_fin, Vector.getElem_set_ne _ _ hij]
          exact hptr i
  · exact h

theorem setHoldPending_fits (k : PumpIx) (b : Bool) : (s.setPump k { s.pump k with holdPending := b }).unitsSound :=
  setPump_same_fits h k (pump_sound h k) rfl

theorem holdPump_fits (k : PumpIx) : (holdPump k s).unitsSound := by
  have pend := setHoldPending_fits h k true
  have stop := demandStop_fits pend k true
  unfold holdPump
  dsimp only
  split
  · rename_i e
    have ht : (s.pump k).restTimer = none := Pump.restTimer_eq_none (pump_sound h k) (by simp [e])
    have hp := Pump.toStill_sound (.inl rfl) (s.pump k).holdPending (pump_sound h k) (.inr e)
    refine setPump_still_fits h k ?_ (by simp [e]) (by simp)
    rwa [← ht] at hp
  · rename_i e
    exact setPump_still_fits h k
      (Pump.toStill_sound (.inl rfl) (s.pump k).holdPending (pump_sound h k) (.inl e)) (by simp [e]) (by simp)
  · exact stop
  · exact stop
  · exact stop
  · exact pend
  · exact pend
  all_goals exact h

theorem releasePump_fits (k : PumpIx) : (releasePump k s).unitsSound := by
  unfold releasePump
  split
  · rename_i e
    exact enterResting_of_sound (fitsBut_of_unitsSound h k) (pump_sound h k) (by rw [e]; decide)
  · exact setHoldPending_fits h k false

theorem clearFault_fits (k : PumpIx) : (clearFault k s).unitsSound := by
  refine enterResting_fits (fitsBut_setPump (fitsBut_of_unitsSound h k) _) ?_ ?_
  · rw [State.pump_setPump_self]
    exact Pump.sound_bounds (p := s.pump k) (pump_sound h k)
  · rw [State.pump_setPump_self]

theorem workSetRunMinutes_fits (k : Byte) (m : BitVec 24) : (workSetRunMinutes k m s).1.unitsSound := by
  unfold workSetRunMinutes
  dsimp only
  split
  · rename_i j _
    split
    · exact h
    · obtain ⟨hc, hp, ht, hrun, hmiss, _, _⟩ := pump_sound h j
      have hm : m.toNat ≤ 16777215 := by have := m.isLt; omega
      have ha : (s.pump j).accumulatorAtSet ≤ 59 := by
        unfold Pump.accumulatorAtSet
        split <;> decide
      exact setPump_same_fits h j ⟨hc, hp, ht, hrun, hmiss, ha, hm⟩ rfl
  · exact h

theorem serviceWork_fits {i : Instr} {w : State → State × Answer} (hi : serviceWork i = some w) : (w s).1.unitsSound := by
  obtain rfl | ⟨k, rfl⟩ | ⟨ix, sp, hd, m, rfl⟩ | ⟨k, u, r, d, q, rfl⟩ | ⟨k, rfl⟩ | ⟨k, rfl⟩ | ⟨k, rfl⟩ | ⟨k, m, rfl⟩ | rfl |
    ⟨_, _, e, _, _⟩ := serviceWork_cases hi s
  case inr.inr.inr.inr.inr.inr.inr.inr.inr =>
    rw [e]
    exact h
  all_goals cases hi
  · exact h
  · unfold workForgetEntry
    repeat' split
    all_goals exact h
  · exact workWriteStep_fits h ix sp hd m
  · exact workWritePointers_fits h k u r d q
  · unfold workHoldPump
    repeat' split
    · exact h
    · exact follow_fits (holdPump_fits h _)
    · exact h
  · unfold workReleasePump
    repeat' split
    · exact h
    · exact releasePump_fits h _
    · exact h
  · unfold workClearFault
    repeat' split
    · exact clearFault_fits h _
    · exact h
    · exact h
  · exact workSetRunMinutes_fits h k m
  · exact h

end

/-- What no service command writes. -/
theorem serviceWork_frame {i : Instr} {w : State → State × Answer} (hi : serviceWork i = some w) (s : State) :
    (w s).1.cond = s.cond ∧ (w s).1.straps = s.straps ∧ (w s).1.inputs = s.inputs ∧ (w s).1.timer = s.timer ∧
      (w s).1.alloc = s.alloc ∧ (w s).1.free = s.free ∧ (w s).1.pending = s.pending := by
  obtain rfl | ⟨k, rfl⟩ | ⟨ix, sp, hd, m, rfl⟩ | ⟨k, u, r, d, q, rfl⟩ | ⟨k, rfl⟩ | ⟨k, rfl⟩ | ⟨k, rfl⟩ | ⟨k, m, rfl⟩ | rfl |
    ⟨_, _, e, _, _⟩ := serviceWork_cases hi s
  case inr.inr.inr.inr.inr.inr.inr.inr.inr =>
    rw [e]
    exact ⟨rfl, rfl, rfl, rfl, rfl, rfl, rfl⟩
  all_goals cases hi
  · exact ⟨rfl, rfl, rfl, rfl, rfl, rfl, rfl⟩
  · unfold workForgetEntry
    repeat' split
    all_goals exact ⟨rfl, rfl, rfl, rfl, rfl, rfl, rfl⟩
  · obtain ⟨_, e⟩ := workWriteStep_changes ix sp hd m s
    rw [e]
    exact ⟨rfl, rfl, rfl, rfl, rfl, rfl, rfl⟩
  · obtain ⟨_, e⟩ := workWritePointers_changes k u r d q s
    rw [e]
    exact ⟨rfl, rfl, rfl, rfl, rfl, rfl, rfl⟩
  · obtain ⟨_, _, _, _, _, e⟩ := workHoldPump_changes k s
    rw [e]
    exact ⟨rfl, rfl, rfl, rfl, rfl, rfl, rfl⟩
  · obtain ⟨_, _, _, e⟩ := workReleasePump_changes k s
    rw [e]
    exact ⟨rfl, rfl, rfl, rfl, rfl, rfl, rfl⟩
  · obtain ⟨_, _, _, e⟩ := workClearFault_changes k s
    rw [e]
    exact ⟨rfl, rfl, rfl, rfl, rfl, rfl, rfl⟩
  · obtain ⟨_, e⟩ := workSetRunMinutes_changes k m s
    rw [e]
    exact ⟨rfl, rfl, rfl, rfl, rfl, rfl, rfl⟩
  · exact ⟨rfl, rfl, rfl, rfl, rfl, rfl, rfl⟩

/-! ### Time, resets and the begin of the blocks -/

@[simp] theorem runDown_isSome (t : Option Nat) : (runDown t).isSome = t.isSome := by
  cases t <;> rfl

theorem Pump.pass_sound {p : Pump} (h : p.sound) : p.pass.sound := by
  obtain ⟨hc, hp, ht, hrun, hmiss, ha, hm⟩ := h
  unfold Pump.sound Pump.pass
  simp only [runDown_isSome]
  exact ⟨hc, hp, ht, hrun, hmiss, ha, hm⟩

theorem Player.pass_sound {q : Player} (h : q.sound) : q.pass.sound := by
  obtain ⟨hv, hr, ⟨hp, hmode, hstart, hstep, hleft, htick⟩ | ⟨hp, hmode, hstart, hstep, htick, hleft, hrest⟩⟩ := h
  · exact ⟨hv, hr, .inl ⟨hp, hmode, hstart, hstep, by simpa [Player.pass] using hleft, htick⟩⟩
  · exact ⟨hv, hr, .inr ⟨hp, hmode, hstart, hstep, htick, by simp [Player.pass, hleft, runDown], hrest⟩⟩

/-- A speed reference at the end of a period: that of a pump in no run is off (R101). -/
theorem runDrives_off {s : State} {k : PumpIx} (n : Nat)
    (hs : (s.pump k).state ≠ .rampUp ∧ (s.pump k).state ≠ .running ∧ (s.pump k).state ≠ .rampDown)
    (hd : s.drives.duty[k] = 0) : (runDrives n s).duty[k] = 0 := by
  have hv : s.driveSpeed k = 0 := by
    obtain ⟨h₁, h₂, h₃⟩ := hs
    unfold State.driveSpeed
    split <;> simp_all
  unfold runDrives
  dsimp only
  split
  · have each : ∀ j : PumpIx, (#v[10 * s.driveSpeed 0, 10 * s.driveSpeed 1, 10 * s.driveSpeed 2, 10 * s.driveSpeed 3])[j] =
        10 * s.driveSpeed j := by
      intro j
      fin_cases j <;> rfl
    rw [each, hv]
  · exact hd

theorem advance_fits {s : State} (h : s.unitsSound) : (advance s).unitsSound := by
  by_cases hc : s.cond = .running
  · have hpl (k : PumpIx) : (advance s).player k = (s.player k).pass := by
      unfold advance
      rw [hc]
      fin_cases k <;> rfl
    have hdr : (advance s).drives = runDrives (Config.outputCounts s.free) s := by
      unfold advance
      rw [hc]
    have hpr : (advance s).profilesSound := by
      unfold advance
      rw [hc]
      exact h.1
    refine ⟨hpr, fun k => ?_⟩
    obtain ⟨hq, hp, hplays, hstill⟩ := h.2 k
    unfold State.unitFits
    rw [pump_advance hc, hpl, hdr]
    refine ⟨Player.pass_sound hq, Pump.pass_sound hp, hplays, fun h₁ h₂ h₃ => ?_⟩
    obtain ⟨hn, hv, hd⟩ := hstill h₁ h₂ h₃
    exact ⟨hn, hv, runDrives_off _ ⟨h₁, h₂, h₃⟩ hd⟩
  · unfold advance
    dsimp only
    split
    · exact h
    · exact h
    · exact h
    · exact absurd ‹_› hc

theorem Pump.reset_sound {m : Nat} (hm : m ≤ 16777215) {a : PumpState} (ha : a = .idle ∨ a = .absent) :
    ({ Pump.reset m with state := a } : Pump).sound := by
  rcases ha with rfl | rfl <;> simp [Pump.sound, Pump.reset, hm]

/-- A pump as a reset leaves it, or fitted as the straps say, fits a player at rest and a speed reference that is off. -/
theorem Pump.reset_fits {m : Nat} (hm : m ≤ 16777215) {a : PumpState} (ha : a = .idle ∨ a = .absent) {q : Player} {d : Nat}
    (hq : q.sound) (hrest : q.playing = false ∧ q.speed = 0 ∧ d = 0) : ({ Pump.reset m with state := a } : Pump).fits q d := by
  refine ⟨hq, Pump.reset_sound hm ha, fun hr => ?_, fun _ _ _ => hrest⟩
  rcases ha with rfl | rfl <;> simp at hr

theorem profilesSound_reset : State.reset.profilesSound := by
  unfold State.profilesSound
  decide

/-- A state whose players and speed references are those of a reset, and whose pumps are so up to the run minutes. -/
theorem unitsSound_of_reset {s : State} (hp : s.profilesSound) (hq : s.players = State.reset.players)
    (hd : s.drives = State.reset.drives)
    (hs : ∀ k, ∃ m a, m ≤ 16777215 ∧ (a = .idle ∨ a = .absent) ∧ s.pump k = { Pump.reset m with state := a }) :
    s.unitsSound := by
  refine ⟨hp, fun k => ?_⟩
  obtain ⟨m, a, hm, ha, e⟩ := hs k
  have hqk : s.player k = Player.reset := by
    unfold State.player
    rw [hq]
    exact Vector.getElem_replicate _
  have hdk : s.drives.duty[k] = 0 := by
    rw [hd]
    exact Vector.getElem_replicate _
  unfold State.unitFits
  rw [e, hqk, hdk]
  exact Pump.reset_fits hm ha (Player.idle_sound (Nat.zero_le _)) ⟨rfl, rfl, rfl⟩

theorem pumpsSound_reset : State.reset.pumpsSound := by
  have hr (k : PumpIx) : State.reset.pump k = Pump.reset 0 := Vector.getElem_replicate _
  rw [State.pumpsSound_iff]
  refine ⟨unitsSound_of_reset profilesSound_reset rfl rfl fun k => ⟨0, .absent, Nat.zero_le _, .inr rfl, ?_⟩, fun _ k => ?_⟩
  · rw [hr]
    rfl
  · rw [hr]
    rfl

theorem pumpsSound_warm {s : State} (h : s.unitsSound) : (takeWarmReset s).pumpsSound := by
  have hr (k : PumpIx) : (takeWarmReset s).pump k = Pump.reset (s.pump k).runMinutes := by
    unfold takeWarmReset
    fin_cases k <;> rfl
  rw [State.pumpsSound_iff]
  refine ⟨unitsSound_of_reset h.1 rfl rfl fun k => ⟨_, .absent, (Pump.sound_bounds (pump_sound h k)).2, .inr rfl, ?_⟩,
    fun _ k => ?_⟩
  · rw [hr]
    rfl
  · rw [hr]
    rfl

/-- The blocks begin with pumps as the reset left them, fitted as the straps say. -/
theorem unitsSound_begins {s : State} (h : s.pumpsSound) (hc : s.cond = .strapReading) (l : StrapLevels) :
    (beginBlocks { s with straps := l, strapPins := l }).unitsSound := by
  obtain ⟨hu, hreset⟩ := s.pumpsSound_iff.mp h
  have hfit (k : PumpIx) : (beginBlocks { s with straps := l, strapPins := l }).pump k = fitPump l k (s.pump k) := by
    unfold beginBlocks
    fin_cases k <;> rfl
  refine ⟨hu.1, fun k => ?_⟩
  have hk := hreset (by rw [hc]; decide) k
  have hm := (Pump.sound_bounds (pump_sound hu k)).2
  obtain ⟨hq, _, _, hstill⟩ := hu.2 k
  have habs : (s.pump k).state = .absent := by
    rw [hk]
    rfl
  unfold State.unitFits
  rw [hfit, hk]
  refine Pump.reset_fits hm ?_ hq (hstill (by simp [habs]) (by simp [habs]) (by simp [habs]))
  unfold fittedState
  split
  · exact .inl rfl
  · exact .inr rfl

/-! ### The statements -/

theorem pumpsSound_of_running {s : State} (h : s.unitsSound) (hc : s.cond = .running) : s.pumpsSound :=
  s.pumpsSound_iff.mpr ⟨h, fun hn => absurd hc hn⟩

theorem unitsSound_of_pumpsSound {s : State} (h : s.pumpsSound) : s.unitsSound := (s.pumpsSound_iff.mp h).1

theorem pumpsSound_stepKeeps : StepKeeps State.pumpsSound where
  outside _ _ _ _ _ h := h
  cold _ _ := ⟨pumpsSound_reset.1, pumpsSound_reset.2.1, fun _ => pumpsSound_reset.2.2 (by decide)⟩
  warm _ h := pumpsSound_warm (unitsSound_of_pumpsSound h)
  resetEnd s κ hc h := ⟨h.1, h.2.1, fun _ => h.2.2 (by rw [hc]; simp)⟩
  strapFault s l hc h := ⟨h.1, h.2.1, fun _ => h.2.2 (by rw [hc]; simp)⟩
  begins s l hc h := pumpsSound_of_running (unitsSound_begins h hc l) rfl
  event i f hi s hc h := by
    refine pumpsSound_of_running (follow_fits (eventWork_fits (unitsSound_of_pumpsSound h) hi hc)) ?_
    rw [follow_cond, (eventWork_frame hi s).1, hc]
  service i w hi s hc h := by
    refine pumpsSound_of_running (serviceWork_fits (unitsSound_of_pumpsSound h) hi) ?_
    rw [(serviceWork_frame hi s).1, hc]
  pass s h := by
    refine (State.pumpsSound_iff _).mpr ⟨advance_fits (unitsSound_of_pumpsSound h), fun hn => ?_⟩
    have hreset := h.2.2
    have hcond : (advance s).cond = s.cond := by
      obtain ⟨_, _, _, _, _, _, _, _, _, e⟩ := advance_changes s
      rw [e]
    have hn' : s.cond ≠ .running := by rwa [hcond] at hn
    have hpumps : (advance s).pumps = s.pumps := by
      unfold advance
      dsimp only
      split
      · rfl
      · rfl
      · rfl
      · exact absurd ‹_› hn'
    intro k
    unfold State.pump
    rw [hpumps]
    exact hreset hn' k

/-- Settles O56: an operation on a pump leaves its unit of record, player and speed reference sound and the others as they were; the
blocks begin with the pumps as a reset leaves them. -/
theorem everyStepKeepsThePumpsSound : Obligations.EveryStepKeepsThePumpsSound :=
  fun _ _ hs ht => pumpsSound_stepKeeps.step hs ht

end Sys2Proof.Machine
end

section
/-! What follows every event at once (R69, R135, R136), the queue, and the machine right after reset. -/

namespace Sys2Proof.Machine

open Sys2Proof

set_option Elab.async false

/-! ### The step and its queue -/

/-- Settles O1: a step with a command at the front of the queue runs it on the state with the queue's rest. -/
theorem stepRunsTheFrontCommand : Obligations.StepRunsTheFrontCommand := by
  intro c s rest h
  simp only [step, h]

/-- Settles O3: the work of an event and of a service command leaves the queue, and the other commands write the state alone. -/
theorem everyCommandCompletesAndKeepsTheQueue : Obligations.EveryCommandCompletesAndKeepsTheQueue := by
  intro c s
  obtain ⟨f, hf⟩ | ⟨w, hw⟩ | rfl | ⟨n, rfl⟩ | rfl | ⟨l, rfl⟩ | rfl | rfl := instr_cases c
  · obtain ⟨_, e⟩ := eventPins_changes c s
    refine ⟨_, exec_of_eventWork hf s, ?_⟩
    by_cases hc : (eventPins c s).cond = .running
    · obtain ⟨_, _, _, _, _, hq⟩ := eventWork_frame hf (eventPins c s)
      rw [whenRunning_of_running hc, follow_pending, hq, e]
    · rw [whenRunning_of_not hc, e]
  · obtain ⟨t, ht, ⟨_, rfl⟩ | ⟨_, a, rfl⟩⟩ := exec_service_cases hw s
    · exact ⟨_, ht, rfl⟩
    · obtain ⟨_, _, _, _, _, _, hq⟩ := serviceWork_frame hw { s with inputs := s.pinsAfter c }
      exact ⟨_, ht, hq⟩
  · exact ⟨_, rfl, rfl⟩
  · refine ⟨_, rfl, ?_⟩
    split
    · rfl
    · split <;> rfl
  · refine ⟨_, rfl, ?_⟩
    split <;> rfl
  · refine ⟨_, rfl, ?_⟩
    split
    · dsimp only
      split <;> rfl
    · rfl
    · rfl
    · rfl
  · refine ⟨_, rfl, ?_⟩
    split <;> rfl
  · exact ⟨_, rfl, rfl⟩

/-! ### What `follow` makes of a state -/

theorem follow_gauge (s : State) : (follow s).gauge = (syncSampling s).gauge := by
  obtain ⟨_, e⟩ := watchStart_changes (syncSampling s)
  rw [follow, e]

/-- The gauge unit stands, goes to PERIODIC, or goes to CONTINUOUS with its scans begun (R135, R136). -/
theorem follow_gauge_cases (s : State) :
    (follow s).gauge = s.gauge ∨
      (s.gauge.sampling = .continuous ∧ (follow s).gauge = { s.gauge with sampling := .periodic, waitCount := 0 }) ∨
      (s.gauge.sampling = .periodic ∧ (follow s).gauge =
        { s.gauge with sampling := .continuous, waitCount := 0, polder := s.gauge.polder.beginScan 0
                       outfall := if s.outfallScanned then s.gauge.outfall.beginScan 4 else s.gauge.outfall }) := by
  rw [follow_gauge]
  unfold syncSampling
  cases hs : s.gauge.sampling <;> cases s.wantsContinuous
  · exact .inr (.inl ⟨rfl, rfl⟩)
  · exact .inl rfl
  · exact .inl rfl
  · exact .inr (.inr ⟨rfl, rfl⟩)

theorem GaugeGroup.beginScan_of_none {g : GaugeGroup} (h : g.scan = none) (p : Fin 6) :
    g.beginScan p = { g with scan := some (Scan.begin p) } := by
  simp [GaugeGroup.beginScan, h]

theorem GaugeGroup.beginScan_of_some {g : GaugeGroup} {c : Scan} (h : g.scan = some c) (p : Fin 6) : g.beginScan p = g := by
  simp [GaugeGroup.beginScan, h]

/-- A scan that begins writes the scan alone. -/
theorem GaugeGroup.beginScan_eq (g : GaugeGroup) (p : Fin 6) : g.beginScan p = { g with scan := (g.beginScan p).scan } := by
  unfold GaugeGroup.beginScan
  split <;> rfl

/-- A gauge station is one whose strap ROLE is 1 to 4 (R121, R157). -/
theorem State.outfallScanned_iff (s : State) :
    s.outfallScanned = true ↔ 1 ≤ s.straps.role.val ∧ s.straps.role.val ≤ 4 := by
  unfold State.outfallScanned StrapLevels.curve
  split <;> simp_all

/-- What `follow` makes of the gauge unit. -/
theorem follow_scans (s : State) :
    (s.gauge.sampling = .periodic → (follow s).gauge.sampling = .continuous →
      (follow s).gauge.polder = s.gauge.polder.beginScan 0 ∧
        (follow s).gauge.outfall = if s.outfallScanned then s.gauge.outfall.beginScan 4 else s.gauge.outfall) ∧
    (¬ (s.gauge.sampling = .periodic ∧ (follow s).gauge.sampling = .continuous) →
      (follow s).gauge.polder = s.gauge.polder ∧ (follow s).gauge.outfall = s.gauge.outfall) := by
  obtain e | ⟨hs, e⟩ | ⟨hs, e⟩ := follow_gauge_cases s <;> rw [e]
  · exact ⟨fun h h' => by simp [h] at h', fun _ => ⟨rfl, rfl⟩⟩
  · exact ⟨fun h _ => by simp [hs] at h, fun _ => ⟨rfl, rfl⟩⟩
  · exact ⟨fun _ _ => ⟨rfl, rfl⟩, fun hn => absurd ⟨hs, rfl⟩ hn⟩

/-- A group in a scan stays as it is. -/
theorem follow_of_scanning (s : State) :
    (∀ c, s.gauge.polder.scan = some c → (follow s).gauge.polder = s.gauge.polder) ∧
    (∀ c, s.gauge.outfall.scan = some c → (follow s).gauge.outfall = s.gauge.outfall) := by
  obtain ⟨hb, hn⟩ := follow_scans s
  by_cases h : s.gauge.sampling = .periodic ∧ (follow s).gauge.sampling = .continuous
  · obtain ⟨hp, ho⟩ := hb h.1 h.2
    refine ⟨fun c hc => by rw [hp, GaugeGroup.beginScan_of_some hc], fun c hc => ?_⟩
    rw [ho, GaugeGroup.beginScan_of_some hc, ite_self]
  · exact ⟨fun _ _ => (hn h).1, fun _ _ => (hn h).2⟩

theorem follow_waitCount (s : State) :
    (follow s).gauge.waitCount = if (follow s).gauge.sampling = s.gauge.sampling then s.gauge.waitCount else 0 := by
  obtain e | ⟨hs, e⟩ | ⟨hs, e⟩ := follow_gauge_cases s <;> rw [e]
  · simp
  · simp [hs]
  · simp [hs]

/-- `follow` writes the sampling mode, the wait count, the scans and the arbiter alone. -/
theorem follow_writes (s : State) :
    follow s =
      { s with
        arb := (follow s).arb
        gauge := { s.gauge with
          sampling := (follow s).gauge.sampling, waitCount := (follow s).gauge.waitCount
          polder := { s.gauge.polder with scan := (follow s).gauge.polder.scan }
          outfall := { s.gauge.outfall with scan := (follow s).gauge.outfall.scan } } } := by
  have hg : (follow s).gauge = { s.gauge with
      sampling := (follow s).gauge.sampling, waitCount := (follow s).gauge.waitCount
      polder := { s.gauge.polder with scan := (follow s).gauge.polder.scan }
      outfall := { s.gauge.outfall with scan := (follow s).gauge.outfall.scan } } := by
    obtain e | ⟨_, e⟩ | ⟨_, e⟩ := follow_gauge_cases s
    · rw [e]
    · rw [e]
    · rw [e]
      dsimp only
      rw [← GaugeGroup.beginScan_eq]
      split
      · rw [← GaugeGroup.beginScan_eq]
      · rfl
  rw [← hg]
  exact follow_frame s

/-- A contending station whose start is not valid withdraws, and every other arbiter stands (R69). -/
theorem follow_arb_cases (s : State) :
    (s.arb.part = .contending → (¬ ∃ k, s.arb.pendingStart = some k ∧ s.startIsValid k) →
      (follow s).arb = { s.arb with part := .withdrawn, pendingStart := none }) ∧
    (s.arb.part ≠ .contending ∨ (∃ k, s.arb.pendingStart = some k ∧ s.startIsValid k) → (follow s).arb = s.arb) := by
  have hv : s.pendingValid = true ↔ ∃ k, s.arb.pendingStart = some k ∧ s.startIsValid k := State.pendingValid_iff s
  refine ⟨fun hc hn => ?_, fun h => follow_arb_of (h.imp_right hv.mpr)⟩
  rw [← hv, Bool.not_eq_true] at hn
  rw [follow_arb, if_pos ⟨hc, hn⟩]

/-! ### Every step leaves the mode and the watch followed -/

theorem advance_gauge (s : State) : (advance s).gauge.sampling = s.gauge.sampling ∧ (advance s).gauge.sumpA = s.gauge.sumpA ∧
    (advance s).gauge.sumpB = s.gauge.sumpB ∧ (advance s).gauge.polder.heldClass = s.gauge.polder.heldClass := by
  unfold advance
  dsimp only
  split <;> exact ⟨rfl, rfl, rfl, rfl⟩

theorem advance_arb (s : State) :
    (advance s).arb.part = s.arb.part ∧ (advance s).arb.pendingStart = s.arb.pendingStart := by
  unfold advance
  dsimp only
  split <;> exact ⟨rfl, rfl⟩

theorem followed_advance {s : State} (h : s.followed) : (advance s).followed := by
  have hframe : (advance s).cond = s.cond ∧ (advance s).timer.mode = s.timer.mode ∧
      (advance s).table.accepted = s.table.accepted ∧ (advance s).alloc.shedSinceSettle = s.alloc.shedSinceSettle := by
    unfold advance
    dsimp only
    split <;> exact ⟨by simp_all, rfl, rfl, rfl⟩
  obtain ⟨hc, hm, ht, ha⟩ := hframe
  have hp (k : PumpIx) : ((advance s).pump k).state = (s.pump k).state := by
    by_cases hr : s.cond = .running
    · rw [pump_advance hr]
      rfl
    · unfold advance
      dsimp only
      split
      · rfl
      · rfl
      · rfl
      · exact absurd ‹_› hr
  exact State.followed_of_same h hc (advance_gauge s) (advance_arb s) hm ht ha fun k => by simp [hp]

/-- A pump's record changed for one that is active where the old one was, and IDLE where it was. -/
theorem followed_setPump {s : State} (h : s.followed) (k : PumpIx) {p : Pump}
    (ha : p.state.active = (s.pump k).state.active) (hi : (s.pump k).state = .idle → p.state = .idle) :
    (s.setPump k p).followed := by
  refine State.followed_of_same h rfl ⟨rfl, rfl, rfl, rfl⟩ ⟨rfl, rfl⟩ rfl rfl rfl fun j => ?_
  by_cases hj : k = j
  · subst hj
    rw [State.pump_setPump_self]
    exact ⟨ha, hi⟩
  · rw [State.pump_setPump_of_ne hj]
    exact ⟨rfl, id⟩

/-- A pump in no active state and not IDLE enters RESTING. -/
theorem followed_enterResting {s : State} (h : s.followed) (k : PumpIx) (ha : (s.pump k).state.active = false)
    (hi : (s.pump k).state ≠ .idle) : (enterResting k s).followed :=
  followed_setPump (p := (s.pump k).toResting) h k (by rw [ha]; rfl) fun e => absurd e hi

theorem followed_service {i : Instr} {w : State → State × Answer} (hi : serviceWork i = some w) {s : State} (h : s.followed)
    (hc : s.cond = .running) : (w s).1.followed := by
  obtain rfl | ⟨k, rfl⟩ | ⟨ix, sp, hd, m, rfl⟩ | ⟨k, u, r, d, q, rfl⟩ | ⟨k, rfl⟩ | ⟨k, rfl⟩ | ⟨k, rfl⟩ | ⟨k, m, rfl⟩ | rfl |
    ⟨_, _, e, _, _⟩ := serviceWork_cases hi s
  case inr.inr.inr.inr.inr.inr.inr.inr.inr =>
    rw [e]
    exact h
  all_goals cases hi
  · exact h
  · unfold workForgetEntry
    repeat' split
    all_goals exact h
  · obtain ⟨_, e⟩ := workWriteStep_changes ix sp hd m s
    rw [e]
    exact h
  · obtain ⟨_, e⟩ := workWritePointers_changes k u r d q s
    rw [e]
    exact h
  · unfold workHoldPump
    repeat' split
    · exact h
    · refine follow_followed ?_
      obtain ⟨_, _, _, e⟩ := holdPump_changes _ s
      rw [e]
      exact hc
    · exact h
  · unfold workReleasePump releasePump
    repeat' split
    · exact h
    · rename_i e
      exact followed_enterResting h _ (by rw [e]; rfl) (by rw [e]; decide)
    · exact followed_setPump h _ rfl id
    · exact h
  · unfold workClearFault clearFault
    repeat' split
    · rename_i j _ e
      have hj : ((s.setPump j { s.pump j with cause := none }).pump j).state = .faulted := by rw [State.pump_setPump_self, e]
      have hx := followed_setPump (p := { s.pump j with cause := none }) h j rfl id
      exact followed_enterResting hx j (by rw [hj]; rfl) (by rw [hj]; decide)
    · exact h
    · exact h
  · unfold workSetRunMinutes
    dsimp only
    repeat' split
    · exact h
    · exact followed_setPump h _ rfl id
    · exact h
  · exact h

theorem followed_reset : State.reset.followed := State.followed_of_unknown rfl rfl (by decide)

theorem followed_stepKeeps : StepKeeps State.followed where
  outside _ _ _ _ _ h := h
  cold _ _ := State.followed_of_unknown rfl rfl nofun
  warm _ _ := State.followed_of_unknown rfl rfl nofun
  resetEnd s κ hc h := ⟨h.1, h.2.1, fun _ => h.2.2 (by rw [hc]; simp)⟩
  strapFault s l hc h := ⟨h.1, h.2.1, fun _ => h.2.2 (by rw [hc]; simp)⟩
  begins s l hc h := by
    obtain ⟨hs, _, hidle⟩ := h
    obtain ⟨hh, hp⟩ := hidle (by rw [hc]; decide)
    have hsampling : s.gauge.sampling = .continuous := hs.mpr (.inr (.inr (.inr (.inl hh))))
    refine State.followed_of_unknown hsampling ?_ hp
    unfold beginBlocks beginScans
    dsimp only
    rw [GaugeGroup.beginScan_eq]
    exact hh
  event i f hi s hc _ := follow_followed ((eventWork_frame hi s).1.trans hc)
  service i w hi s hc h := followed_service hi h hc
  pass _ h := followed_advance h

/-- Settles O6: `follow` writes what R69 and R135 say and leaves a state that it does not change again; every event ends with it, and
no other step changes what it looks at. -/
theorem samplingModeAndWithdrawalFollowEveryEvent : Obligations.SamplingModeAndWithdrawalFollowEveryEvent := by
  refine ⟨fun s => ?_, fun _ _ hs ht => followed_stepKeeps.step hs ht⟩
  obtain ⟨hbegin, hstand⟩ := follow_scans s
  obtain ⟨hscanP, hscanO⟩ := follow_of_scanning s
  obtain ⟨hout, hkeep⟩ := follow_arb_cases s
  have hfits : (follow s).samplingFits := follow_samplingFits s
  obtain ⟨_, g, e⟩ := follow_changes s
  refine ⟨?_, follow_waitCount s, fun h h' hn => ?_, fun h h' hn => ?_, hstand, hscanP, hscanO, hout, hkeep, follow_writes s,
    follow_idem s⟩
  · have hA : (follow s).gauge.sumpA = s.gauge.sumpA ∧ (follow s).gauge.sumpB = s.gauge.sumpB ∧
        (follow s).gauge.polder.heldClass = s.gauge.polder.heldClass := by
      rw [follow_writes]
      exact ⟨rfl, rfl, rfl⟩
    unfold State.samplingFits at hfits
    simpa only [State.pumpActive_iff, follow_pump, hA.1, hA.2.1, hA.2.2] using hfits
  · rw [(hbegin h h').1, GaugeGroup.beginScan_of_none hn]
    rfl
  · rw [(hbegin h h').2]
    by_cases ho : s.outfallScanned = true
    · rw [if_pos ho, if_pos ((State.outfallScanned_iff s).mp ho), GaugeGroup.beginScan_of_none hn]
      rfl
    · rw [if_neg ho, if_neg (fun hr => ho ((State.outfallScanned_iff s).mpr hr)), hn]

/-- Settles O60: the state after reset is a constant, and each invariant of it is evaluated. -/
theorem resetMeetsEveryInvariant : Obligations.ResetMeetsEveryInvariant :=
  ⟨tableSound_reset, pumpsSound_reset, districtStopHolds_reset, lowSumpHolds_reset, cablesSound_reset, arbiterSound_reset,
    silenceHolds_reset, followed_reset⟩

end Sys2Proof.Machine
end

section
/-! The round end in its stages: the line interface, then the table, the pumps, the gauge unit and the round timer, each written by
its own stage alone (R24). -/

namespace Sys2Proof.Machine

open Sys2Proof

set_option Elab.async false

/-! ### The stages -/

/-- A state with the table's round-end work done. -/
def tableStage (s : State) : State := tableRoundEnd (lineRoundEnd s)

/-- F1 DISTRICT STOP enters the accepted set with the table's round-end work (R19). -/
def stopAtEnd (s : State) : Bool := stopEnters (lineRoundEnd s) (tableStage s)

/-- A state with the pumps' round-end work done. -/
def pumpStage (s : State) : State := pumpsRoundEnd (stopAtEnd s) (tableStage s)

/-- A state with the gauge unit's round-end work done. -/
def gaugeStage (s : State) : State := gaugeRoundEnd (pumpStage s)

/-- What a ROUND_END leaves of a running part. -/
def roundEnded (inp : Inputs) (s : State) : State := follow (takeRoundEnd { s with inputs := inp })

theorem exec_roundEnd {s : State} (h : s.cond = .running) (inp : Inputs) :
    exec (.roundEnd inp) s = .next (roundEnded inp s) :=
  congrArg Host.Outcome.next (whenRunning_of_running (s := { s with inputs := inp }) h takeRoundEnd)

theorem tableStage_changes (s : State) : ∃ t l r, tableStage s = { s with table := t, line := l, port := r } := by
  obtain ⟨l, _, e⟩ := lineRoundEnd_changes s
  obtain ⟨t, r, e'⟩ := tableRoundEnd_changes (lineRoundEnd s)
  exact ⟨t, l, r, by rw [tableStage, e', e]⟩

theorem pumpStage_changes (s : State) :
    ∃ p q d r, pumpStage s = { tableStage s with pumps := p, players := q, drives := d, port := r } :=
  pumpsRoundEnd_changes _ _

theorem gaugeStage_changes (s : State) : ∃ g, gaugeStage s = { pumpStage s with gauge := g } := gaugeRoundEnd_changes _

/-- The round timer's stage finds the timer and the straps as the round end found them, and the table as the table's stage left
it. -/
theorem gaugeStage_frame (s : State) :
    (gaugeStage s).timer = s.timer ∧ (gaugeStage s).straps = s.straps ∧ (gaugeStage s).table = (tableStage s).table ∧
      (gaugeStage s).line = (tableStage s).line := by
  obtain ⟨_, e₃⟩ := gaugeStage_changes s
  obtain ⟨_, _, _, _, e₂⟩ := pumpStage_changes s
  obtain ⟨_, _, _, e₁⟩ := tableStage_changes s
  rw [e₃, e₂, e₁]
  exact ⟨rfl, rfl, rfl, rfl⟩

theorem takeRoundEnd_eq (s : State) :
    takeRoundEnd s =
      { timerRoundEnd (gaugeStage s) with
        timer := { (timerRoundEnd (gaugeStage s)).timer with phase := 0 }, free := (timerRoundEnd (gaugeStage s)).free + 1 } := rfl

theorem tableStage_line (s : State) : (tableStage s).line = (lineRoundEnd s).line := by
  obtain ⟨_, _, e⟩ := tableRoundEnd_changes (lineRoundEnd s)
  rw [tableStage, e]

/-- The table's stage looks at nothing that the line interface's stage writes. -/
theorem tableStage_table (s : State) : (tableStage s).table = (tableRoundEnd s).table := by
  obtain ⟨_, _, e⟩ := lineRoundEnd_changes s
  rw [tableStage, e]
  unfold tableRoundEnd
  dsimp only
  split <;> rename_i h <;> split <;> rename_i h'
  · rfl
  · exact absurd h h'
  · exact absurd h' h
  · rfl

/-- The pumps' and the gauge unit's stages find them as the round end found them. -/
theorem tableStage_frame (s : State) :
    (tableStage s).pumps = s.pumps ∧ (tableStage s).players = s.players ∧ (tableStage s).drives = s.drives ∧
      (tableStage s).gauge = s.gauge ∧ (tableStage s).inputs = s.inputs ∧ (tableStage s).free = s.free := by
  obtain ⟨_, _, _, e⟩ := tableStage_changes s
  rw [e]
  exact ⟨rfl, rfl, rfl, rfl, rfl, rfl⟩

theorem takeRoundEnd_changes (s : State) :
    ∃ m r n, takeRoundEnd s = { gaugeStage s with timer := m, port := r, free := n } := by
  obtain ⟨_, _, e⟩ := timerRoundEnd_changes (gaugeStage s)
  rw [takeRoundEnd_eq, e]
  exact ⟨_, _, _, rfl⟩

/-- What a round end leaves, record by record. -/
theorem takeRoundEnd_frame (s : State) :
    (takeRoundEnd s).cond = s.cond ∧ (takeRoundEnd s).straps = s.straps ∧ (takeRoundEnd s).inputs = s.inputs ∧
      (takeRoundEnd s).arb = s.arb ∧ (takeRoundEnd s).alloc = s.alloc ∧ (takeRoundEnd s).table = (tableStage s).table ∧
      (takeRoundEnd s).line = (lineRoundEnd s).line := by
  obtain ⟨_, _, _, e₄⟩ := takeRoundEnd_changes s
  obtain ⟨_, e₃⟩ := gaugeStage_changes s
  obtain ⟨_, _, _, _, e₂⟩ := pumpStage_changes s
  rw [← tableStage_line]
  obtain ⟨_, _, _, e₁⟩ := tableStage_changes s
  rw [e₄, e₃, e₂, e₁]
  exact ⟨rfl, rfl, rfl, rfl, rfl, rfl, rfl⟩

theorem takeRoundEnd_pumps (s : State) :
    (takeRoundEnd s).pumps = (pumpStage s).pumps ∧ (takeRoundEnd s).players = (pumpStage s).players ∧
      (takeRoundEnd s).drives = (pumpStage s).drives ∧ (takeRoundEnd s).gauge = (gaugeStage s).gauge := by
  obtain ⟨_, _, _, e₄⟩ := takeRoundEnd_changes s
  rw [e₄]
  dsimp only
  obtain ⟨_, e₃⟩ := gaugeStage_changes s
  rw [e₃]
  exact ⟨rfl, rfl, rfl, rfl⟩

/-- The round end leaves nothing to follow in the gauge unit. -/
theorem roundEnded_gauge (inp : Inputs) (s : State) :
    (roundEnded inp s).gauge = (gaugeStage { s with inputs := inp }).gauge := by
  obtain ⟨_, _, _, e⟩ := takeRoundEnd_changes { s with inputs := inp }
  have hs : (takeRoundEnd { s with inputs := inp }).samplingSettled := by
    rw [e]
    exact gaugeRoundEnd_settled _
  rw [roundEnded, follow_gauge, syncSampling_of_settled hs]
  exact (takeRoundEnd_pumps _).2.2.2

/-! ### The round timer -/

/-- The round end forms the reference after the table has aged (R24, R26). -/
theorem roundEnded_referenceChosen (inp : Inputs) (s : State) : (roundEnded inp s).referenceChosen := by
  rw [roundEnded, follow_frame]
  exact chooseReference_chosen _

theorem setMode_of_eq {m : Mode} {s : State} (h : s.timer.mode = m) : setMode m s = s := if_pos h

/-- The round end forms counts and then sets a mode, which may be the one that stands (R34, R36, R38). -/
theorem countsRoundEnd_cases (s : State) :
    ∃ m readBack unheard joining, countsRoundEnd s = setMode m
      { s with timer := { s.timer with readBackCount := readBack, unheardCount := unheard, joiningCount := joining } } := by
  have stay (readBack unheard joining : Nat) :
      ∃ m readBack' unheard' joining',
        ({ s with timer := { s.timer with readBackCount := readBack, unheardCount := unheard, joiningCount := joining } }
          : State) = setMode m { s with timer :=
            { s.timer with readBackCount := readBack', unheardCount := unheard', joiningCount := joining' } } :=
    ⟨s.timer.mode, readBack, unheard, joining, (setMode_of_eq rfl).symm⟩
  unfold countsRoundEnd
  extract_lets t unheard readBack _ _ joining
  clear_value unheard readBack joining
  split
  · exact stay s.timer.readBackCount s.timer.unheardCount s.timer.joiningCount
  · exact stay readBack s.timer.unheardCount s.timer.joiningCount
  · split
    · exact ⟨_, _, _, _, rfl⟩
    · exact stay readBack unheard s.timer.joiningCount
  · split
    · exact ⟨_, _, _, _, rfl⟩
    · split
      · exact ⟨_, _, _, _, rfl⟩
      · exact stay readBack unheard joining

/-- What the change of mode leaves of the round timer. -/
theorem setMode_timer (m : Mode) (s : State) :
    (setMode m s).timer = { s.timer with mode := m, reference := (setMode m s).timer.reference } := by
  unfold setMode
  split
  · rename_i h
    rw [← h]
  · rfl

theorem countsRoundEnd_marks (s : State) :
    (countsRoundEnd s).timer.count = s.timer.count ∧ (countsRoundEnd s).timer.realignCount = s.timer.realignCount ∧
      (countsRoundEnd s).timer.held = s.timer.held ∧ (countsRoundEnd s).timer.replaced = s.timer.replaced ∧
      (countsRoundEnd s).timer.aligned = s.timer.aligned := by
  obtain ⟨_, _, _, _, e⟩ := countsRoundEnd_cases s
  rw [e, setMode_timer]
  exact ⟨rfl, rfl, rfl, rfl, rfl⟩

/-- What the round end leaves of the round timer. -/
theorem roundEnded_timer (inp : Inputs) (s : State) :
    (roundEnded inp s).timer =
      { (countsRoundEnd (gaugeStage { s with inputs := inp })).timer with
        phase := 0, count := s.timer.count + 1, roundMarked := false, failedInRound := false, settleTaken := false,
        windowTaken := false, announceTaken := false, reference := (roundEnded inp s).timer.reference } := by
  have hc : (countsRoundEnd (gaugeStage { s with inputs := inp })).timer.count = s.timer.count := by
    rw [(countsRoundEnd_marks _).1, (gaugeStage_frame _).1]
  rw [← hc, roundEnded, follow_timer, takeRoundEnd_eq]
  rfl

/-! ### Attention flags -/

theorem flag_raise_of_not {f : Attention} {i : Nat} (h : f.bit.getLsbD i = false) (s : State) :
    (s.raise f).port.flags.getLsbD i = s.port.flags.getLsbD i := by
  simp [h]

theorem flag_raise_self {f : Attention} {i : Nat} (h : f.bit.getLsbD i = true) (s : State) :
    (s.raise f).port.flags.getLsbD i = true := by
  simp [h]

theorem tableRoundEnd_flag {i : Nat} (h : Attention.flagChange.bit.getLsbD i = false) (s : State) :
    (tableRoundEnd s).port.flags.getLsbD i = s.port.flags.getLsbD i := by
  unfold tableRoundEnd pushFlagChange
  dsimp only
  split
  · exact flag_raise_of_not h _
  · rfl

theorem superviseFeedback_flag {i : Nat} (h : Attention.pumpFault.bit.getLsbD i = false) (k : PumpIx) (s : State) :
    (superviseFeedback k s).port.flags.getLsbD i = s.port.flags.getLsbD i := by
  unfold superviseFeedback
  dsimp only
  repeat' split
  · rfl
  · exact flag_raise_of_not h _
  · rfl
  · rfl

theorem pumpRoundEnd_flag {i : Nat} (h : Attention.pumpFault.bit.getLsbD i = false) (b : Bool) (k : PumpIx) (s : State) :
    (pumpRoundEnd b k s).port.flags.getLsbD i = s.port.flags.getLsbD i := by
  unfold pumpRoundEnd
  split
  · split
    · exact superviseFeedback_flag h k s
    · unfold urgentStop
      split <;> rfl
  · exact superviseFeedback_flag h k s

theorem pumpsRoundEnd_flag {i : Nat} (h : Attention.pumpFault.bit.getLsbD i = false) (b : Bool) (s : State) :
    (pumpsRoundEnd b s).port.flags.getLsbD i = s.port.flags.getLsbD i :=
  (((pumpRoundEnd_flag h b 3 _).trans (pumpRoundEnd_flag h b 2 _)).trans (pumpRoundEnd_flag h b 1 _)).trans
    (pumpRoundEnd_flag h b 0 s)

theorem setMode_flag {i : Nat} (h : Attention.modeChange.bit.getLsbD i = false) (m : Mode) (s : State) :
    (setMode m s).port.flags.getLsbD i = s.port.flags.getLsbD i := by
  unfold setMode
  split
  · rfl
  · exact flag_raise_of_not h _

theorem countsRoundEnd_flag {i : Nat} (h : Attention.modeChange.bit.getLsbD i = false) (s : State) :
    (countsRoundEnd s).port.flags.getLsbD i = s.port.flags.getLsbD i := by
  obtain ⟨_, _, _, _, e⟩ := countsRoundEnd_cases s
  rw [e]
  exact setMode_flag h _ _

theorem endCheck_flag {i : Nat} (h : Attention.checkDone.bit.getLsbD i = false) (r : CheckResult) (s : State) :
    (endCheck r s).port.flags.getLsbD i = s.port.flags.getLsbD i :=
  flag_raise_of_not h _

theorem checkRoundEnd_flag {i : Nat} (h : Attention.checkDone.bit.getLsbD i = false) (s : State) :
    (checkRoundEnd s).port.flags.getLsbD i = s.port.flags.getLsbD i := by
  unfold checkRoundEnd
  dsimp only
  split
  · split
    · split
      · exact endCheck_flag h _ _
      · rfl
    · rfl
  · rfl

theorem setActive_flag {i : Nat} (h : Attention.checkDone.bit.getLsbD i = false) (c : Cable) (s : State) :
    (setActive c s).port.flags.getLsbD i = s.port.flags.getLsbD i := by
  unfold setActive abortCheck
  split
  · exact endCheck_flag h _ _
  · rfl

theorem lineRoundEnd_flag {i : Nat} (h : Attention.checkDone.bit.getLsbD i = false)
    (h' : Attention.cableSwitch.bit.getLsbD i = false) (s : State) :
    (lineRoundEnd s).port.flags.getLsbD i = s.port.flags.getLsbD i := by
  have hs (x : State) : (switchTest x).port.flags.getLsbD i = x.port.flags.getLsbD i := by
    unfold switchTest
    split
    · exact (flag_raise_of_not h' _).trans (setActive_flag h _ _)
    · rfl
  exact (hs _).trans (checkRoundEnd_flag h s)

/-- The flags that the round end leaves are those of its stages. -/
theorem roundEnded_flag (inp : Inputs) (s : State) (i : Nat) :
    (roundEnded inp s).port.flags.getLsbD i =
      (countsRoundEnd (gaugeStage { s with inputs := inp })).port.flags.getLsbD i := by
  rw [roundEnded, follow_port]
  rfl

theorem gaugeStage_port (s : State) : (gaugeStage s).port = (pumpStage s).port := by
  obtain ⟨_, e⟩ := gaugeStage_changes s
  rw [e]

end Sys2Proof.Machine
end

section
/-! What the round end leaves of the table, the gauge unit and the arbiter (R2, R13, R16, R17, R20, R121, R136). -/

namespace Sys2Proof.Machine

open Sys2Proof

set_option Elab.async false

/-! ### The table -/

theorem Entry.aged_of_empty {e : Entry} (h : e.status = .empty) : e.aged = e := if_pos h

theorem Entry.aged_of_not_empty {e : Entry} (h : e.status ≠ .empty) :
    e.aged = { e with age := min 255 (e.age + 1),
                      status := if min 255 (e.age + 1) ≤ 1 then .fresh else if min 255 (e.age + 1) ≤ 7 then .stale else .lost } :=
  if_neg h

/-- The raw flag set that a round end forms, after the ageing (R16). -/
def State.rawAtEnd (s : State) : FlagSet :=
  State.rawFlagSet { s with table := { s.table with entries := ageEntries s.table.entries } }

theorem tableRoundEnd_of_accepted {s : State} (h : s.rawAtEnd = s.table.candidate ∧ s.rawAtEnd ≠ s.table.accepted) :
    tableRoundEnd s = pushFlagChange { flags := s.rawAtEnd, round := s.timer.count }
      { s with table := { s.table with entries := ageEntries s.table.entries, accepted := s.rawAtEnd } } :=
  if_pos h

theorem tableRoundEnd_of_not {s : State} (h : ¬ (s.rawAtEnd = s.table.candidate ∧ s.rawAtEnd ≠ s.table.accepted)) :
    tableRoundEnd s = { s with table := { s.table with entries := ageEntries s.table.entries, candidate := s.rawAtEnd } } :=
  if_neg h

theorem tableRoundEnd_entries (s : State) :
    (tableRoundEnd s).table.entries = ageEntries s.table.entries ∧
      (tableRoundEnd s).table.ownStartSeen = s.table.ownStartSeen ∧ (tableRoundEnd s).table.candidate = s.rawAtEnd := by
  by_cases h : s.rawAtEnd = s.table.candidate ∧ s.rawAtEnd ≠ s.table.accepted
  · rw [tableRoundEnd_of_accepted h]
    exact ⟨rfl, rfl, h.1.symm⟩
  · rw [tableRoundEnd_of_not h]
    exact ⟨rfl, rfl, rfl⟩

/-- A bit of a disjunction over a list. -/
theorem foldl_or_bit {α : Type} (g : α → FlagSet) (i : Nat) (l : List α) (f : FlagSet) :
    (l.foldl (fun f k => f ||| g k) f).getLsbD i = true ↔ f.getLsbD i = true ∨ ∃ k ∈ l, (g k).getLsbD i = true := by
  induction l generalizing f with
  | nil => simp
  | cons a l ih => simp [ih, or_assoc]

/-- What an entry adds to the raw flag set is what its fields hold where it is heard (R16). -/
theorem Entry.rawFlags_bit (e : Entry) (i : Nat) :
    e.rawFlags.getLsbD i = true ↔
      ∃ f, (e.status = .fresh ∨ e.status = .stale) ∧ e.fields = some f ∧ f.flags.getLsbD i = true := by
  unfold Entry.rawFlags Entry.heard
  cases hf : e.fields with
  | none => simp
  | some f => cases hs : e.status <;> simp

/-- The raw flag set is formed of the own inputs and of the entries heard (R16). -/
theorem rawFlagSet_bit {s : State} (h : s.cond = .running) (i : Nat) :
    s.rawFlagSet.getLsbD i = true ↔
      s.inputs.flags.getLsbD i = true ∨ ∃ k f, s.heardFields k f ∧ f.flags.getLsbD i = true := by
  unfold State.rawFlagSet State.heardFields
  rw [foldl_or_bit]
  have hown : (s.entry s.own).rawFlags = s.inputs.flags := by
    rw [State.entry_own h]
    rfl
  constructor
  · rintro (h0 | ⟨k, _, hk⟩)
    · simp at h0
    · by_cases hke : k = s.own
      · rw [hke, hown] at hk
        exact .inl hk
      · rw [State.entry_of_ne hke, Entry.rawFlags_bit] at hk
        obtain ⟨f, hst, hf, hb⟩ := hk
        exact .inr ⟨k, f, ⟨hke, hst, hf⟩, hb⟩
  · rintro (hi | ⟨k, f, ⟨hke, hst, hf⟩, hb⟩)
    · exact .inr ⟨s.own, mem_stationList _, by rwa [hown]⟩
    · refine .inr ⟨k, mem_stationList k, ?_⟩
      rw [State.entry_of_ne hke, Entry.rawFlags_bit]
      exact ⟨f, hst, hf, hb⟩

theorem roundEnded_table (inp : Inputs) (s : State) :
    (roundEnded inp s).table = (tableRoundEnd { s with inputs := inp }).table := by
  obtain ⟨_, _, _, _, _, ht, _⟩ := takeRoundEnd_frame { s with inputs := inp }
  rw [roundEnded, follow_table, ht, tableStage_table]

/-- The flag FLAG CHANGE after the round end is the table's. -/
theorem roundEnded_flagChange (inp : Inputs) (s : State) :
    (roundEnded inp s).port.flags.getLsbD 0 = (tableStage { s with inputs := inp }).port.flags.getLsbD 0 := by
  rw [roundEnded_flag, countsRoundEnd_flag (by decide), gaugeStage_port]
  exact pumpsRoundEnd_flag (by decide) _ _

/-- The table's stage raises FLAG CHANGE where the table accepts a set, and leaves the flag otherwise (R20). -/
theorem tableStage_flagChange (s : State) :
    (s.rawAtEnd = s.table.candidate ∧ s.rawAtEnd ≠ s.table.accepted → (tableStage s).port.flags.getLsbD 0 = true) ∧
      (¬ (s.rawAtEnd = s.table.candidate ∧ s.rawAtEnd ≠ s.table.accepted) →
        (tableStage s).port.flags.getLsbD 0 = s.port.flags.getLsbD 0) := by
  have hl := lineRoundEnd_flag (i := 0) (by decide) (by decide) s
  have hr : (lineRoundEnd s).rawAtEnd = s.rawAtEnd ∧ (lineRoundEnd s).table = s.table := by
    obtain ⟨_, _, e⟩ := lineRoundEnd_changes s
    rw [e]
    exact ⟨rfl, rfl⟩
  unfold tableStage
  rw [← hr.1, ← hr.2]
  constructor
  · intro h
    rw [tableRoundEnd_of_accepted h]
    exact flag_raise_self rfl _
  · intro h
    rw [← hl, tableRoundEnd_of_not h]

/-! ### The gauge unit -/

/-- A group as a scan that begins at a probe leaves it, in the words of the statements. -/
theorem GaugeGroup.beginScan_def (g : GaugeGroup) (p : Fin 6) :
    g.beginScan p =
      if g.scan.isSome = true then g else { g with scan := some { probe := p, first := none, tried := 0, windowTime := 0 } } :=
  rfl

theorem GaugeGroup.beginScan_idem (g : GaugeGroup) (p : Fin 6) : (g.beginScan p).beginScan p = g.beginScan p := by
  cases h : g.scan with
  | none => rw [GaugeGroup.beginScan_of_none h, GaugeGroup.beginScan_of_some rfl]
  | some c => rw [GaugeGroup.beginScan_of_some h, GaugeGroup.beginScan_of_some h]

/-- The groups with their scans begun (R121). -/
def State.begunOutfall (s : State) : GaugeGroup :=
  if s.outfallScanned then s.gauge.outfall.beginScan 4 else s.gauge.outfall

theorem syncSampling_gauge_cases (s : State) :
    ((syncSampling s).gauge = s.gauge) ∨
      (s.gauge.sampling = .continuous ∧ (syncSampling s).gauge = { s.gauge with sampling := .periodic, waitCount := 0 }) ∨
      (s.gauge.sampling = .periodic ∧ (syncSampling s).gauge =
        { s.gauge with sampling := .continuous, waitCount := 0, polder := s.gauge.polder.beginScan 0
                       outfall := s.begunOutfall }) := by
  rw [← follow_gauge]
  exact follow_gauge_cases s

/-- The gauge unit's round-end work in PERIODIC: the wait count, and the scans at 16 (R136). -/
theorem gaugeRoundEnd_of_periodic {s : State} (h : s.gauge.sampling = .periodic) :
    ((gaugeRoundEnd s).gauge.sampling = .periodic →
      (s.gauge.waitCount < 15 → (gaugeRoundEnd s).gauge = { s.gauge with waitCount := s.gauge.waitCount + 1 }) ∧
      (15 ≤ s.gauge.waitCount → (gaugeRoundEnd s).gauge =
        { s.gauge with waitCount := 0, polder := s.gauge.polder.beginScan 0, outfall := s.begunOutfall })) ∧
    ((gaugeRoundEnd s).gauge.sampling = .continuous → (gaugeRoundEnd s).gauge =
      { s.gauge with sampling := .continuous, waitCount := 0, polder := s.gauge.polder.beginScan 0
                     outfall := s.begunOutfall }) := by
  have hx : gaugeRoundEnd s = syncSampling
      (if 16 ≤ s.gauge.waitCount + 1 then beginScans { s with gauge := { s.gauge with waitCount := 0 } }
       else { s with gauge := { s.gauge with waitCount := s.gauge.waitCount + 1 } }) := by
    unfold gaugeRoundEnd
    rw [h]
  rw [hx]
  split
  · rename_i h16
    have hb : (beginScans { s with gauge := { s.gauge with waitCount := 0 } }).begunOutfall = s.begunOutfall := by
      unfold State.begunOutfall beginScans
      dsimp only
      have ho : ∀ g : Gauge, ({ s with gauge := g } : State).outfallScanned = s.outfallScanned := fun _ => rfl
      simp only [ho]
      split
      · exact GaugeGroup.beginScan_idem _ _
      · rfl
    obtain e | ⟨hs, _⟩ | ⟨_, e⟩ := syncSampling_gauge_cases (beginScans { s with gauge := { s.gauge with waitCount := 0 } })
    · rw [e]
      refine ⟨fun _ => ⟨fun hlt => by omega, fun _ => rfl⟩, fun hc => ?_⟩
      have hp : s.gauge.sampling = .continuous := hc
      rw [h] at hp
      cases hp
    · have hp : s.gauge.sampling = .continuous := hs
      rw [h] at hp
      cases hp
    · rw [e, hb]
      refine ⟨fun hc => by simp at hc, fun _ => ?_⟩
      unfold beginScans
      dsimp only
      rw [GaugeGroup.beginScan_idem]
  · rename_i h16
    obtain e | ⟨hs, _⟩ | ⟨_, e⟩ := syncSampling_gauge_cases { s with gauge := { s.gauge with waitCount := s.gauge.waitCount + 1 } }
    · rw [e]
      refine ⟨fun _ => ⟨fun _ => rfl, fun hge => by omega⟩, fun hc => ?_⟩
      rw [h] at hc
      cases hc
    · rw [h] at hs
      cases hs
    · rw [e]
      exact ⟨fun hc => by simp at hc, fun _ => rfl⟩

/-- The gauge unit's round-end work in CONTINUOUS: it stands, or goes to PERIODIC with a wait count of 0 or 1 (R136, log 9). -/
theorem gaugeRoundEnd_of_continuous {s : State} (h : s.gauge.sampling = .continuous) :
    ((gaugeRoundEnd s).gauge.sampling = .continuous → (gaugeRoundEnd s).gauge = s.gauge) ∧
    ((gaugeRoundEnd s).gauge.sampling = .periodic →
      (gaugeRoundEnd s).gauge = { s.gauge with sampling := .periodic, waitCount := 0 } ∨
        (gaugeRoundEnd s).gauge = { s.gauge with sampling := .periodic, waitCount := 1 }) := by
  have hx : gaugeRoundEnd s =
      match (syncSampling s).gauge.sampling with
      | .continuous => syncSampling s
      | .periodic => { syncSampling s with gauge := { (syncSampling s).gauge with
          waitCount := if Config.roundEndCountsAtChange (syncSampling s).free then 1 else 0 } } := by
    unfold gaugeRoundEnd
    rw [h] <;> rfl
  rw [hx]
  obtain e | ⟨_, e⟩ | ⟨hs, _⟩ := syncSampling_gauge_cases s
  · have hm : (syncSampling s).gauge.sampling = .continuous := by rw [e, h]
    simp only [hm]
    rw [e]
    exact ⟨fun _ => rfl, fun hp => by simp at hp⟩
  · have hm : (syncSampling s).gauge.sampling = .periodic := by rw [e]
    simp only [hm]
    rw [e]
    refine ⟨fun hc => by simp at hc, fun _ => ?_⟩
    split
    · exact .inr rfl
    · exact .inl rfl
  · rw [h] at hs
    cases hs

/-! ### The statement -/

/-- The gauge unit's stage finds it as the round end found it. -/
theorem roundEnded_gauge_eq (inp : Inputs) (s : State) :
    ∃ x : State, x.gauge = s.gauge ∧ x.straps = s.straps ∧ (roundEnded inp s).gauge = (gaugeRoundEnd x).gauge ∧
      (roundEnded inp s).samplingFits := by
  refine ⟨pumpStage { s with inputs := inp }, ?_, ?_, roundEnded_gauge inp s, follow_samplingFits _⟩
  all_goals
    obtain ⟨_, _, _, _, e₂⟩ := pumpStage_changes { s with inputs := inp }
    obtain ⟨_, _, _, e₁⟩ := tableStage_changes { s with inputs := inp }
    rw [e₂, e₁]

/-- What the round end leaves of the arbiter and of everything that it does not write (R69, R77). -/
theorem roundEnded_arb (inp : Inputs) (s : State) :
    (s.arb.part ≠ .contending ∨ (∃ k, s.arb.pendingStart = some k ∧ (roundEnded inp s).startIsValid k) →
        (roundEnded inp s).arb = s.arb) ∧
    (s.arb.part = .contending → (¬ ∃ k, s.arb.pendingStart = some k ∧ (roundEnded inp s).startIsValid k) →
      (roundEnded inp s).arb = { s.arb with part := .withdrawn, pendingStart := none }) := by
  obtain ⟨_, _, _, ha, _⟩ := takeRoundEnd_frame { s with inputs := inp }
  have hv (k : PumpIx) : (roundEnded inp s).startIsValid k ↔ (takeRoundEnd { s with inputs := inp }).startIsValid k := by
    unfold roundEnded
    rw [State.startIsValid_iff, State.startIsValid_iff]
    unfold State.startValid
    simp only [follow_pump, follow_sumpLow, follow_table, follow_timer, follow_alloc]
  obtain ⟨hout, hkeep⟩ := follow_arb_cases (takeRoundEnd { s with inputs := inp })
  rw [ha] at hout hkeep
  simp only [hv]
  exact ⟨hkeep, hout⟩

theorem roundEnded_changes (inp : Inputs) (s : State) :
    ∃ t' m' a' p' q' d' g' l' r' n', roundEnded inp s =
      { s with inputs := inp, table := t', timer := m', arb := a', pumps := p', players := q', drives := d', gauge := g'
               line := l', port := r', free := n' } := by
  obtain ⟨_, _, _, e₄⟩ := takeRoundEnd_changes { s with inputs := inp }
  obtain ⟨_, e₃⟩ := gaugeStage_changes { s with inputs := inp }
  obtain ⟨_, _, _, _, e₂⟩ := pumpStage_changes { s with inputs := inp }
  obtain ⟨_, _, _, e₁⟩ := tableStage_changes { s with inputs := inp }
  obtain ⟨_, _, e₅⟩ := follow_changes (takeRoundEnd { s with inputs := inp })
  rw [roundEnded, e₅, e₄, e₃, e₂, e₁]
  exact ⟨_, _, _, _, _, _, _, _, _, _, rfl⟩

/-- Settles O7: each record that the round end leaves is that of the one stage which writes it. -/
theorem roundEndAgesTheTableAndFormsTheFlagSets : Obligations.RoundEndAgesTheTableAndFormsTheFlagSets := by
  refine ⟨fun inp s hc => ⟨roundEnded inp s, exec_roundEnd hc inp, ?_⟩,
    fun inp s hc => ⟨roundEnded inp s, exec_roundEnd hc inp, State.rawAtEnd { s with inputs := inp }, ?_⟩,
    fun inp s hc => ⟨roundEnded inp s, exec_roundEnd hc inp, ?_⟩⟩
  · obtain ⟨_, hrealign, hheld, hreplaced, _⟩ := countsRoundEnd_marks (gaugeStage { s with inputs := inp })
    have htimer := (gaugeStage_frame { s with inputs := inp }).1
    rw [htimer] at hrealign hheld hreplaced
    obtain ⟨hentries, hown, _⟩ := tableRoundEnd_entries { s with inputs := inp }
    obtain ⟨hkeep, hout⟩ := roundEnded_arb inp s
    have hchosen := roundEnded_referenceChosen inp s
    obtain ⟨_, _, _, _, _, _, _, _, _, _, e⟩ := roundEnded_changes inp s
    have ht := roundEnded_timer inp s
    refine ⟨by rw [ht], by rw [ht], by rw [ht], by rw [ht], by rw [ht], by rw [ht], by rw [ht], hchosen,
      by rw [ht]; exact hrealign, by rw [ht]; exact hheld, by rw [ht]; exact hreplaced, fun k => ?_, ?_, hkeep, hout, ?_⟩
    · rw [roundEnded_table, hentries, ageEntries_getElem]
      exact ⟨fun h => Entry.aged_of_empty h, fun h => Entry.aged_of_not_empty h⟩
    · rw [roundEnded_table, hown]
    · rw [e]
  · have hraw : (roundEnded inp s).cond = .running := by
      obtain ⟨_, _, _, _, _, _, _, _, _, _, e⟩ := roundEnded_changes inp s
      rw [e]
      exact hc
    obtain ⟨hentries, _, hcand⟩ := tableRoundEnd_entries { s with inputs := inp }
    obtain ⟨hset, hstand⟩ := tableStage_flagChange { s with inputs := inp }
    refine ⟨fun i => ?_, ?_, fun h => ?_, fun h => ?_⟩
    · have hheard (k : Station) (f : EntryFields) : (roundEnded inp s).heardFields k f ↔
          State.heardFields { s with inputs := inp, table := { s.table with entries := ageEntries s.table.entries } } k f := by
        have hown : (roundEnded inp s).own = s.own := by
          obtain ⟨_, _, _, _, _, _, _, _, _, _, e⟩ := roundEnded_changes inp s
          rw [e]
          rfl
        unfold State.heardFields
        rw [roundEnded_table, hentries, hown]
        rfl
      simp only [hheard]
      exact rawFlagSet_bit
        (s := { s with inputs := inp, table := { s.table with entries := ageEntries s.table.entries } }) hc i
    · rw [roundEnded_table, hcand]
    · rw [roundEnded_table, roundEnded_flagChange, tableRoundEnd_of_accepted h]
      refine ⟨rfl, hset h, ?_, rfl⟩
      change pushRecord _ s.table.queue = _
      cases s.table.queue <;> rfl
    · rw [roundEnded_table, roundEnded_flagChange, tableRoundEnd_of_not h]
      exact ⟨rfl, rfl, rfl, hstand h⟩
  · obtain ⟨x, hg, hs, e, hfits⟩ := roundEnded_gauge_eq inp s
    have hpolder := GaugeGroup.beginScan_def s.gauge.polder 0
    have houtfall : (if 1 ≤ s.straps.role.val ∧ s.straps.role.val ≤ 4 then s.gauge.outfall.beginScan 4 else s.gauge.outfall) =
        x.begunOutfall := by
      unfold State.begunOutfall
      simp only [State.outfallScanned_iff, hs, hg]
    dsimp only
    rw [← hpolder, ← GaugeGroup.beginScan_def, houtfall, e, ← hg]
    refine ⟨hfits, fun h h' => ((gaugeRoundEnd_of_periodic h).1 h').1, fun h h' => ((gaugeRoundEnd_of_periodic h).1 h').2,
      fun h => (gaugeRoundEnd_of_periodic h).2, fun h => (gaugeRoundEnd_of_continuous h).1,
      fun h => (gaugeRoundEnd_of_continuous h).2⟩

end Sys2Proof.Machine
end

section
/-! What the round end leaves of the pumps, the station mode and the line interface (R19, R34 to R39, R94, R146, R148, R154, R155). -/

namespace Sys2Proof.Machine

open Sys2Proof

set_option Elab.async false

/-! ### A pump at the round end -/

/-- Two states with the same pump, player and speed reference at `k`, and the same run feedback. -/
def State.sameUnit (k : PumpIx) (s t : State) : Prop :=
  t.pump k = s.pump k ∧ t.player k = s.player k ∧ t.drives.duty[k] = s.drives.duty[k] ∧ t.inputs = s.inputs

theorem pumpRoundEnd_sameUnit {j k : PumpIx} (h : j ≠ k) (b : Bool) (s : State) : State.sameUnit j s (pumpRoundEnd b k s) := by
  have hne : ¬ k.val = j.val := PumpIx.val_ne h
  obtain ⟨h₁, h₂⟩ := pumpRoundEnd_pump_of_ne h b s
  have hf (c : FaultCause) : (faultPump k c s).drives.duty[j] = s.drives.duty[j] := by
    simp [faultPump, dropDrive, hne]
  have hs : (superviseFeedback k s).drives.duty[j] = s.drives.duty[j] := by
    unfold superviseFeedback
    dsimp only
    repeat' split
    · rfl
    · exact hf _
    · rfl
    · rfl
  refine ⟨h₁, h₂, ?_, ?_⟩
  · unfold pumpRoundEnd
    repeat' split
    · exact hs
    · rw [Fin.getElem_fin, urgentStop_duty, if_neg (fun hc => h hc.1.symm)]
      rfl
    · exact hs
  · obtain ⟨_, _, _, _, e⟩ := pumpRoundEnd_changes b k s
    rw [e]

theorem State.sameUnit_trans {k : PumpIx} {s t u : State} (h : State.sameUnit k s t) (h' : State.sameUnit k t u) :
    State.sameUnit k s u := by
  obtain ⟨h₁, h₂, h₃, h₄⟩ := h
  obtain ⟨h₁', h₂', h₃', h₄'⟩ := h'
  exact ⟨h₁'.trans h₁, h₂'.trans h₂, h₃'.trans h₃, h₄'.trans h₄⟩

theorem State.sameUnit_refl (k : PumpIx) (s : State) : State.sameUnit k s s := ⟨rfl, rfl, rfl, rfl⟩

/-- PUMP FAULT stays set. -/
theorem pumpRoundEnd_pumpFault {s : State} (h : s.port.flags.getLsbD 1 = true) (b : Bool) (k : PumpIx) :
    (pumpRoundEnd b k s).port.flags.getLsbD 1 = true := by
  have hs : (superviseFeedback k s).port.flags.getLsbD 1 = true := by
    unfold superviseFeedback
    dsimp only
    repeat' split
    · exact h
    · exact flag_raise_self rfl _
    · exact h
    · exact h
  unfold pumpRoundEnd
  repeat' split
  · exact hs
  · unfold urgentStop
    split <;> exact h
  · exact hs

/-- The round end acts on each pump once, on the unit as it stood, and the flag it sets stays. -/
theorem pumpsRoundEnd_at (b : Bool) (k : PumpIx) (s : State) :
    ∃ x, State.sameUnit k s x ∧ State.sameUnit k (pumpRoundEnd b k x) (pumpsRoundEnd b s) ∧
      ((pumpRoundEnd b k x).port.flags.getLsbD 1 = true → (pumpsRoundEnd b s).port.flags.getLsbD 1 = true) := by
  have other (j : PumpIx) (h : k ≠ j) (x : State) := pumpRoundEnd_sameUnit h b x
  have fault (j : PumpIx) {x : State} (h : x.port.flags.getLsbD 1 = true) := pumpRoundEnd_pumpFault h b j
  have e : pumpsRoundEnd b s = pumpRoundEnd b 3 (pumpRoundEnd b 2 (pumpRoundEnd b 1 (pumpRoundEnd b 0 s))) := rfl
  rw [e]
  fin_cases k
  · exact ⟨s, State.sameUnit_refl _ _,
      State.sameUnit_trans (other 1 (by decide) _) (State.sameUnit_trans (other 2 (by decide) _) (other 3 (by decide) _)),
      fun h => fault 3 (fault 2 (fault 1 h))⟩
  · exact ⟨_, other 0 (by decide) s, State.sameUnit_trans (other 2 (by decide) _) (other 3 (by decide) _),
      fun h => fault 3 (fault 2 h)⟩
  · exact ⟨_, State.sameUnit_trans (other 0 (by decide) s) (other 1 (by decide) _), other 3 (by decide) _, fun h => fault 3 h⟩
  · exact ⟨_, State.sameUnit_trans (other 0 (by decide) s) (State.sameUnit_trans (other 1 (by decide) _) (other 2 (by decide) _)),
      State.sameUnit_refl _ _, id⟩

/-- The supervised pumps whose feedback the round end reads (R94). -/
def Pump.isRead (p : Pump) : Prop := p.supervised = true ∧ (p.state = .rampUp ∨ p.state = .running)

theorem superviseFeedback_of_not {s : State} {k : PumpIx} (h : ¬ (s.pump k).isRead) : superviseFeedback k s = s := by
  refine if_neg ?_
  rw [Bool.and_eq_true, PumpState.runs_iff]
  exact h

theorem superviseFeedback_of_seen {s : State} {k : PumpIx} (h : (s.pump k).isRead) (hf : s.inputs.runFb.getLsbD k = true) :
    superviseFeedback k s = s.setPump k { s.pump k with missCount := 0 } := by
  unfold superviseFeedback
  dsimp only
  rw [if_pos (by rw [Bool.and_eq_true, PumpState.runs_iff]; exact h), if_pos hf]

theorem superviseFeedback_of_missed {s : State} {k : PumpIx} (h : (s.pump k).isRead) (hf : s.inputs.runFb.getLsbD k = false) :
    superviseFeedback k s =
      if 1 ≤ (s.pump k).missCount then faultPump k .runLost s
      else s.setPump k { s.pump k with missCount := (s.pump k).missCount + 1 } := by
  have hn : ¬ s.inputs.runFb.getLsbD k = true := by
    rw [hf]
    decide
  unfold superviseFeedback
  dsimp only
  rw [if_pos (by rw [Bool.and_eq_true, PumpState.runs_iff]; exact h), if_neg hn]
  by_cases hm : 1 ≤ (s.pump k).missCount
  · rw [if_pos hm, if_pos (by omega)]
  · rw [if_neg hm, if_neg (by omega)]

/-- A pump that no stop reaches has its feedback read. -/
theorem pumpRoundEnd_of_not {b : Bool} {s : State} {k : PumpIx} (h : ¬ (b = true ∧ s.pumpActive k)) :
    pumpRoundEnd b k s = superviseFeedback k s := by
  refine if_neg ?_
  rw [Bool.and_eq_true, ← State.pumpActive_iff]
  exact h

/-- A pump that the stop reaches rests, or its feedback is read first where that faults it (log 8). -/
theorem pumpRoundEnd_of_stop {b : Bool} {s : State} {k : PumpIx} (h : b = true ∧ s.pumpActive k) :
    pumpRoundEnd b k s = enterResting k s ∨
      ((s.pump k).isRead ∧ s.inputs.runFb.getLsbD k = false ∧ 1 ≤ (s.pump k).missCount ∧
        pumpRoundEnd b k s = faultPump k .runLost s) := by
  have ha : (s.pump k).state.active = true := by rw [← State.pumpActive_iff]; exact h.2
  have hu : urgentStop k s = enterResting k s := if_pos ha
  unfold pumpRoundEnd
  rw [if_pos (by rw [h.1, ha]; rfl)]
  split
  · rename_i hr
    simp only [State.readingFaults, Bool.and_eq_true, Bool.not_eq_true', decide_eq_true_eq, PumpState.runs_iff] at hr
    obtain ⟨⟨⟨hsup, hf⟩, hm⟩, _⟩ := hr
    have hm : 1 ≤ (s.pump k).missCount := by omega
    exact .inr ⟨hsup, hf, hm, by rw [superviseFeedback_of_missed hsup hf, if_pos hm]⟩
  · exact .inl hu

/-- F1 DISTRICT STOP enters with the round end where it is accepted after it and was not before (R19). -/
theorem stopAtEnd_iff (inp : Inputs) (s : State) :
    stopAtEnd { s with inputs := inp } = true ↔
      (roundEnded inp s).table.accepted.getLsbD 1 = true ∧ s.table.accepted.getLsbD 1 = false := by
  have hl : (lineRoundEnd { s with inputs := inp }).table = s.table := by
    obtain ⟨_, _, e⟩ := lineRoundEnd_changes { s with inputs := inp }
    rw [e]
  unfold stopAtEnd stopEnters districtStop
  rw [hl, roundEnded_table, ← tableStage_table, Bool.and_eq_true, Bool.not_eq_true']

/-- A pump after the round end is as the controllers' work on it left it, and the flag PUMP FAULT with it. -/
theorem roundEnded_unit (inp : Inputs) (s : State) (k : PumpIx) :
    ∃ x : State, x.pump k = s.pump k ∧ x.player k = s.player k ∧ x.inputs = inp ∧
      State.sameUnit k (pumpRoundEnd (stopAtEnd { s with inputs := inp }) k x) (roundEnded inp s) ∧
      ((pumpRoundEnd (stopAtEnd { s with inputs := inp }) k x).port.flags.getLsbD 1 = true →
        (roundEnded inp s).port.flags.getLsbD 1 = true) := by
  obtain ⟨hp, hq, _, _, hi, _⟩ := tableStage_frame { s with inputs := inp }
  obtain ⟨x, ⟨h₁, h₂, _, h₄⟩, hx, hflag⟩ :=
    pumpsRoundEnd_at (stopAtEnd { s with inputs := inp }) k (tableStage { s with inputs := inp })
  obtain ⟨hp', hq', hd', _⟩ := takeRoundEnd_pumps { s with inputs := inp }
  have hi' : (takeRoundEnd { s with inputs := inp }).inputs = (pumpStage { s with inputs := inp }).inputs := by
    obtain ⟨_, _, _, _, e⟩ := pumpStage_changes { s with inputs := inp }
    obtain ⟨_, _, htake, _⟩ := takeRoundEnd_frame { s with inputs := inp }
    rw [htake, e, hi]
  refine ⟨x, ?_, ?_, h₄.trans hi, State.sameUnit_trans hx ?_, fun h => ?_⟩
  · rw [h₁]
    unfold State.pump
    rw [hp]
  · rw [h₂]
    unfold State.player
    rw [hq]
  · unfold State.sameUnit State.pump State.player roundEnded
    rw [follow_pumps, follow_players, follow_drives, follow_inputs, hp', hq', hd', hi']
    exact ⟨rfl, rfl, rfl, rfl⟩
  · rw [roundEnded_flag, countsRoundEnd_flag (by decide), gaugeStage_port]
    exact hflag h

@[simp] theorem enterResting_duty (k : PumpIx) (s : State) : (enterResting k s).drives.duty[k] = 0 :=
  Vector.getElem_set_self _

@[simp] theorem faultPump_duty (k : PumpIx) (c : FaultCause) (s : State) : (faultPump k c s).drives.duty[k] = 0 :=
  Vector.getElem_set_self _

@[simp] theorem enterResting_player (k : PumpIx) (s : State) : (enterResting k s).player k = Player.idle 0 :=
  State.player_setPlayer_self k _ _

@[simp] theorem faultPump_player (k : PumpIx) (c : FaultCause) (s : State) : (faultPump k c s).player k = Player.idle 0 :=
  State.player_setPlayer_self k _ _

@[simp] theorem faultPump_pump (k : PumpIx) (c : FaultCause) (s : State) : (faultPump k c s).pump k = (s.pump k).toFaulted c :=
  State.pump_setPump_self k _ _

theorem Pump.keepsWork_toResting (p : Pump) : p.keepsWork p.toResting := Pump.keepsWork_of_eq rfl rfl

theorem Pump.keepsWork_toFaulted (p : Pump) (c : FaultCause) : p.keepsWork (p.toFaulted c) := Pump.keepsWork_of_eq rfl rfl

/-- A pump's state changes at a round end only as it rests or faults, and its work is kept (R99). -/
theorem pumpRoundEnd_keepsWork (b : Bool) (k : PumpIx) (s : State)
    (h : ((pumpRoundEnd b k s).pump k).state ≠ (s.pump k).state) : (s.pump k).keepsWork ((pumpRoundEnd b k s).pump k) := by
  have hread (hn : ((superviseFeedback k s).pump k).state ≠ (s.pump k).state) :
      (s.pump k).keepsWork ((superviseFeedback k s).pump k) := by
    by_cases hr : (s.pump k).isRead
    · cases hf : s.inputs.runFb.getLsbD k with
      | true =>
        rw [superviseFeedback_of_seen hr hf, State.pump_setPump_self] at hn
        exact absurd rfl hn
      | false =>
        rw [superviseFeedback_of_missed hr hf] at hn ⊢
        split
        · rw [faultPump_pump]
          exact Pump.keepsWork_toFaulted _ _
        · rename_i hm
          rw [if_neg hm, State.pump_setPump_self] at hn
          exact absurd rfl hn
    · rw [superviseFeedback_of_not hr] at hn
      exact absurd rfl hn
  by_cases hs : b = true ∧ s.pumpActive k
  · obtain e | ⟨_, _, _, e⟩ := pumpRoundEnd_of_stop hs
    · rw [e, enterResting_pump_self]
      exact Pump.keepsWork_toResting _
    · rw [e, faultPump_pump]
      exact Pump.keepsWork_toFaulted _ _
  · rw [pumpRoundEnd_of_not hs] at h ⊢
    exact hread h

/-- Settles O8: the round end acts on each pump once: a stop that enters rests it, and a reading of its feedback clears the miss
count, counts a miss or faults it. -/
theorem roundEndStopsPumpsAtF1AndSupervisesFeedback : Obligations.RoundEndStopsPumpsAtF1AndSupervisesFeedback := by
  intro inp s hc
  refine ⟨roundEnded inp s, exec_roundEnd hc inp, fun k => ?_⟩
  obtain ⟨x, hp, hq, hi, ⟨hpt, hqt, hdt, _⟩, hflag⟩ := roundEnded_unit inp s k
  have hact : x.pumpActive k ↔ s.pumpActive k := by
    unfold State.pumpActive
    rw [hp]
  have hwork := pumpRoundEnd_keepsWork (stopAtEnd { s with inputs := inp }) k x
  dsimp only
  rw [hpt, hqt, hdt, ← stopAtEnd_iff inp s, ← hact]
  generalize stopAtEnd { s with inputs := inp } = b at hflag hwork ⊢
  rw [← hp, ← hq]
  refine ⟨fun hn hr => ?_, fun hn hr hf => ?_, fun hn hr hf hm => ?_, fun hn hr hf hm => ?_, fun hb ha hr => ?_,
    fun hb ha => ?_, hwork⟩
  · rw [pumpRoundEnd_of_not hn, superviseFeedback_of_not hr]
    exact ⟨rfl, rfl⟩
  · rw [pumpRoundEnd_of_not hn, superviseFeedback_of_seen hr (by rw [hi]; exact hf), State.pump_setPump_self]
  · rw [pumpRoundEnd_of_not hn, superviseFeedback_of_missed hr (by rw [hi]; exact hf), if_neg (by omega),
      State.pump_setPump_self, State.player_setPump, hm]
    exact ⟨rfl, rfl⟩
  · have e : pumpRoundEnd b k x = faultPump k .runLost x := by
      rw [pumpRoundEnd_of_not hn, superviseFeedback_of_missed hr (by rw [hi]; exact hf), if_pos hm]
    refine ⟨?_, ?_, ?_, ?_, ?_, ?_, ?_, hflag ?_⟩
    all_goals rw [e]
    · simp [Pump.toFaulted]
    · simp [Pump.toFaulted]
    · simp [Pump.toFaulted, Pump.leaveRun]
    · simp [Pump.toFaulted, Pump.leaveRun_eq]
    · simp [Player.idle]
    · simp [Player.idle]
    · exact faultPump_duty k _ x
    · exact flag_raise_self rfl _
  · obtain e | ⟨hread, hf, hm, _⟩ := pumpRoundEnd_of_stop ⟨hb, ha⟩
    · rw [e, enterResting_pump_self, enterResting_player]
      refine ⟨rfl, rfl, rfl, rfl, ?_, rfl, rfl, enterResting_duty k x⟩
      simp [Pump.toResting, Pump.leaveRun_eq]
    · exact absurd ⟨hread, by rw [← hi]; exact hf, hm⟩ hr
  · obtain e | ⟨_, _, _, e⟩ := pumpRoundEnd_of_stop ⟨hb, ha⟩
    · rw [e, enterResting_pump_self]
      exact .inl rfl
    · rw [e, faultPump_pump]
      exact .inr rfl

end Sys2Proof.Machine
end

section
/-! What the round end leaves of the station mode and of the line interface (R34 to R39, R146, R148, R154, R155). -/

namespace Sys2Proof.Machine

open Sys2Proof

set_option Elab.async false

/-! ### The station mode -/

@[simp] theorem setMode_joiningCount (m : Mode) (s : State) : (setMode m s).timer.joiningCount = s.timer.joiningCount := by
  rw [setMode_timer]

@[simp] theorem setMode_unheardCount (m : Mode) (s : State) : (setMode m s).timer.unheardCount = s.timer.unheardCount := by
  rw [setMode_timer]

@[simp] theorem setMode_readBackCount (m : Mode) (s : State) : (setMode m s).timer.readBackCount = s.timer.readBackCount := by
  rw [setMode_timer]

/-- A change of mode sets MODE CHANGE (R32). -/
theorem setMode_modeChange (m : Mode) (s : State) :
    (setMode m s).port.flags.getLsbD 5 = (s.port.flags.getLsbD 5 || decide (m ≠ s.timer.mode)) := by
  by_cases h : s.timer.mode = m
  · rw [setMode_of_eq h]
    simp [h]
  · have hs : setMode m s = chooseReference (State.raise .modeChange { s with timer := { s.timer with mode := m } }) := if_neg h
    have hf : (setMode m s).port.flags.getLsbD 5 = true := by
      rw [hs]
      exact flag_raise_self rfl _
    rw [hf]
    simp [Ne.symm h]

theorem countsRoundEnd_modeChange (s : State) :
    (countsRoundEnd s).port.flags.getLsbD 5 =
      (s.port.flags.getLsbD 5 || decide ((countsRoundEnd s).timer.mode ≠ s.timer.mode)) := by
  obtain ⟨m, _, _, _, e⟩ := countsRoundEnd_cases s
  rw [e, setMode_modeChange, setMode_mode]

/-- The read-back failure count of a station that is not SILENT (R38). -/
theorem countsRoundEnd_readBackCount {s : State} (h : s.timer.mode ≠ .silent) :
    (countsRoundEnd s).timer.readBackCount = if s.timer.failedInRound = true then s.timer.readBackCount else 0 := by
  unfold countsRoundEnd
  extract_lets t unheard readBack _ _ joining
  have hr : readBack = if s.timer.failedInRound = true then s.timer.readBackCount else 0 := rfl
  rw [← hr]
  clear_value unheard readBack joining
  split
  · exact absurd ‹_› h
  · rfl
  · split
    · exact setMode_readBackCount _ _
    · rfl
  · split
    · exact setMode_readBackCount _ _
    · split
      · exact setMode_readBackCount _ _
      · rfl

/-- What a round end leaves of the round timer's mode and counts is what the counts' stage makes of them as they stood. -/
theorem roundEnded_counts (inp : Inputs) (s : State) :
    ∃ x : State, x.timer = s.timer ∧ x.port.flags.getLsbD 5 = s.port.flags.getLsbD 5 ∧
      (roundEnded inp s).timer.mode = (countsRoundEnd x).timer.mode ∧
      (roundEnded inp s).timer.joiningCount = (countsRoundEnd x).timer.joiningCount ∧
      (roundEnded inp s).timer.unheardCount = (countsRoundEnd x).timer.unheardCount ∧
      (roundEnded inp s).timer.readBackCount = (countsRoundEnd x).timer.readBackCount ∧
      (roundEnded inp s).timer.aligned = s.timer.aligned ∧
      (roundEnded inp s).port.flags.getLsbD 5 = (countsRoundEnd x).port.flags.getLsbD 5 := by
  have htimer : (gaugeStage { s with inputs := inp }).timer = s.timer := (gaugeStage_frame _).1
  have ht := roundEnded_timer inp s
  refine ⟨gaugeStage { s with inputs := inp }, htimer, ?_, ?_, ?_, ?_, ?_, ?_, roundEnded_flag inp s 5⟩
  · rw [gaugeStage_port, pumpStage, pumpsRoundEnd_flag (by decide), tableStage, tableRoundEnd_flag (by decide),
      lineRoundEnd_flag (by decide) (by decide)]
  · rw [ht]
  · rw [ht]
  · rw [ht]
  · rw [ht]
  · obtain ⟨_, _, _, _, ha⟩ := countsRoundEnd_marks (gaugeStage { s with inputs := inp })
    rw [ht]
    exact ha.trans (by rw [htimer])

/-- Settles O9: the counts and the mode are those that the round timer's stage forms of the marks of the ended round. -/
theorem roundEndCountsRoundsAndChangesTheMode : Obligations.RoundEndCountsRoundsAndChangesTheMode := by
  intro inp s hc
  refine ⟨roundEnded inp s, exec_roundEnd hc inp, ?_⟩
  obtain ⟨x, htimer, hflag, hm, hj, hu, hr, ha, hf⟩ := roundEnded_counts inp s
  rw [hm, hj, hu, hr, ha, hf, countsRoundEnd_modeChange, hflag, ← htimer]
  refine ⟨fun h hmark hjoin => ?_, fun h hmark hjoin => ?_, fun h hmark => ?_, fun h hmark hun => ?_, fun h hmark hun => ?_,
    fun h hmark hun => ?_, fun h => ?_, fun h => ?_, fun h => ?_, rfl⟩
  · have hj : 2 ≤ x.timer.joiningCount + 1 := by omega
    simp [countsRoundEnd, h, hmark, hj]
  · simp [countsRoundEnd, h, hmark, hjoin]
  · simp [countsRoundEnd, h, hmark]
  · have hsat : satAdd 8 x.timer.unheardCount 1 = 8 := by
      unfold satAdd
      omega
    rcases h with h | h
    · simp [countsRoundEnd, h, hmark, hsat]
    · simp [countsRoundEnd, h, hmark, hsat]
  · have hsat : satAdd 8 x.timer.unheardCount 1 = x.timer.unheardCount + 1 := by
      unfold satAdd
      omega
    have hne : x.timer.unheardCount ≠ 7 := by omega
    simp [countsRoundEnd, h, hmark, hsat, hne]
  · have hsat : satAdd 8 x.timer.unheardCount 1 = x.timer.unheardCount + 1 := by
      unfold satAdd
      omega
    have hne : x.timer.unheardCount ≠ 7 := by omega
    simp [countsRoundEnd, h, hmark, hsat, hne]
  · simp [countsRoundEnd, h]
  · simp [countsRoundEnd, h]
  · exact countsRoundEnd_readBackCount h

end Sys2Proof.Machine
end

section
/-! What the round end leaves of the line interface: the lock machines, the active cable and the cable check (R146, R148, R154,
R155). -/

namespace Sys2Proof.Machine

open Sys2Proof

set_option Elab.async false

/-! ### The judgement of the check -/

/-- A check that ends with a result (R155). -/
def CableCheck.ends (r : CheckResult) (k : CableCheck) : CableCheck :=
  { k with running := false, armed := false, result := r, roundErrored := false, opened := [], arrivals := [] }

/-- A check with the round that ends judged (R155). -/
def CableCheck.judged (k : CableCheck) : CableCheck :=
  { k with errored := if k.roundErrored = true then min 255 (k.errored + 1) else k.errored
           roundsLeft := k.roundsLeft - 1, roundErrored := false
           pulse := if k.roundErrored = true then some 10000 else k.pulse }

/-- A state with another cable check. -/
def State.withCheck (k : CableCheck) (s : State) : State := { s with line := { s.line with check := k } }

theorem checkRoundEnd_of_stopped {s : State} (h : s.line.check.running = false) : checkRoundEnd s = s := by
  simp [checkRoundEnd, h]

theorem checkRoundEnd_of_first {s : State} (h : s.line.check.running = true) (ha : s.line.check.armed = false) :
    checkRoundEnd s = s.withCheck { s.line.check with armed := true, roundErrored := false } := by
  simp [checkRoundEnd, h, ha, State.withCheck]

theorem checkRoundEnd_of_more {s : State} (h : s.line.check.running = true) (ha : s.line.check.armed = true)
    (hl : 2 ≤ s.line.check.roundsLeft) : checkRoundEnd s = s.withCheck s.line.check.judged := by
  have hn : ¬ s.line.check.roundsLeft - 1 = 0 := by omega
  unfold checkRoundEnd
  dsimp only
  rw [if_pos h, if_pos ha, if_neg hn]
  rfl

theorem checkRoundEnd_of_last {s : State} (h : s.line.check.running = true) (ha : s.line.check.armed = true)
    (hl : s.line.check.roundsLeft ≤ 1) :
    checkRoundEnd s = State.raise .checkDone
      (s.withCheck (s.line.check.judged.ends (if s.line.check.judged.errored = 0 then .pass else .fail))) := by
  have hz : s.line.check.roundsLeft - 1 = 0 := by omega
  unfold checkRoundEnd
  dsimp only
  rw [if_pos h, if_pos ha, if_pos hz]
  rfl

/-! ### The active cable -/

@[simp] theorem otherCable_ne (c : Cable) : otherCable c ≠ c := by
  cases c <;> decide

theorem setActive_of_stopped {s : State} (h : s.line.check.running = false) (c : Cable) :
    setActive c s = { s with line := { s.line with active := c } } := by
  simp [setActive, abortCheck, h]

theorem setActive_of_running {s : State} (h : s.line.check.running = true) (c : Cable) :
    setActive c s = State.raise .checkDone
      { s with line := { s.line with active := c, check := s.line.check.ends .aborted } } := by
  unfold setActive abortCheck
  rw [if_pos h]
  rfl

/-- The test of R148, on the lock machines as the round end leaves them. -/
def State.switches (s : State) : Bool :=
  !(s.line.cable s.line.active).roundEnd.locked && (s.line.cable (otherCable s.line.active)).roundEnd.locked

/-- A state with both lock machines stepped. -/
def State.locksStepped (s : State) : State := { s with line := { s.line with a := s.line.a.roundEnd, b := s.line.b.roundEnd } }

@[simp] theorem State.locksStepped_cable (s : State) (c : Cable) : s.locksStepped.line.cable c = (s.line.cable c).roundEnd := by
  cases c <;> rfl

theorem lineRoundEnd_eq (s : State) :
    lineRoundEnd s =
      if s.switches then State.raise .cableSwitch (setActive (otherCable s.line.active) (checkRoundEnd s).locksStepped)
      else (checkRoundEnd s).locksStepped := by
  obtain ⟨_, _, e⟩ := checkRoundEnd_line s
  have ha : (checkRoundEnd s).line.active = s.line.active := by rw [e]
  have hc (c : Cable) : (checkRoundEnd s).line.cable c = s.line.cable c := by
    rw [e]
    cases c <;> rfl
  have hsw : (checkRoundEnd s).switches = s.switches := by
    unfold State.switches
    rw [ha, hc, hc]
  rw [← hsw, ← ha]
  unfold State.switches
  rw [← State.locksStepped_cable, ← State.locksStepped_cable]
  rfl

/-- The lock machines step, whatever the check and the active cable do. -/
theorem lineRoundEnd_cable (s : State) (c : Cable) : (lineRoundEnd s).line.cable c = (s.line.cable c).roundEnd := by
  obtain ⟨_, _, e⟩ := checkRoundEnd_line s
  have hc : (checkRoundEnd s).locksStepped.line.cable c = (s.line.cable c).roundEnd := by
    rw [State.locksStepped_cable, e]
    cases c <;> rfl
  rw [lineRoundEnd_eq, ← hc]
  split
  · unfold setActive abortCheck
    split <;> cases c <;> rfl
  · rfl

theorem lineRoundEnd_active (s : State) :
    (lineRoundEnd s).line.active = if s.switches then otherCable s.line.active else s.line.active := by
  obtain ⟨_, _, e⟩ := checkRoundEnd_line s
  rw [lineRoundEnd_eq]
  split
  · unfold setActive abortCheck
    split <;> rfl
  · rw [e]
    rfl

/-- A switch aborts a check that still runs (R155). -/
theorem lineRoundEnd_check (s : State) :
    (lineRoundEnd s).line.check =
      if s.switches && (checkRoundEnd s).line.check.running then (checkRoundEnd s).line.check.ends .aborted
      else (checkRoundEnd s).line.check := by
  rw [lineRoundEnd_eq]
  cases s.switches with
  | false => rfl
  | true =>
    cases hr : (checkRoundEnd s).line.check.running with
    | false =>
      rw [setActive_of_stopped (s := (checkRoundEnd s).locksStepped) hr]
      rfl
    | true =>
      rw [setActive_of_running (s := (checkRoundEnd s).locksStepped) hr]
      rfl

/-- CABLE SWITCH is set by a switch alone. -/
theorem lineRoundEnd_cableSwitch (s : State) :
    (lineRoundEnd s).port.flags.getLsbD 3 = (s.switches || s.port.flags.getLsbD 3) := by
  rw [lineRoundEnd_eq]
  cases s.switches with
  | false => exact (checkRoundEnd_flag (by decide) s).trans (Bool.false_or _).symm
  | true => exact (flag_raise_self rfl _).trans (Bool.true_or _).symm

/-- CHECK DONE is set by the judgement of the last round and by the abort of a running check. -/
theorem lineRoundEnd_checkDone (s : State) :
    (lineRoundEnd s).port.flags.getLsbD 4 =
      (s.switches && (checkRoundEnd s).line.check.running || (checkRoundEnd s).port.flags.getLsbD 4) := by
  rw [lineRoundEnd_eq]
  cases s.switches with
  | false => rfl
  | true =>
    have hs (x : State) : (State.raise .cableSwitch x).port.flags.getLsbD 4 = x.port.flags.getLsbD 4 :=
      flag_raise_of_not rfl x
    simp only [if_true, hs, Bool.true_and]
    cases hr : (checkRoundEnd s).line.check.running with
    | false =>
      rw [setActive_of_stopped (s := (checkRoundEnd s).locksStepped) hr]
      rfl
    | true =>
      rw [setActive_of_running (s := (checkRoundEnd s).locksStepped) hr]
      exact flag_raise_self rfl _

theorem roundEnded_line (inp : Inputs) (s : State) : (roundEnded inp s).line = (lineRoundEnd { s with inputs := inp }).line := by
  obtain ⟨_, _, _, _, _, _, hl⟩ := takeRoundEnd_frame { s with inputs := inp }
  rw [roundEnded, follow_line, hl]

theorem roundEnded_lineFlag {i : Nat} (h₀ : Attention.flagChange.bit.getLsbD i = false)
    (h₁ : Attention.pumpFault.bit.getLsbD i = false) (h₅ : Attention.modeChange.bit.getLsbD i = false) (inp : Inputs) (s : State) :
    (roundEnded inp s).port.flags.getLsbD i = (lineRoundEnd { s with inputs := inp }).port.flags.getLsbD i := by
  rw [roundEnded_flag, countsRoundEnd_flag h₅, gaugeStage_port, pumpStage, pumpsRoundEnd_flag h₁, tableStage,
    tableRoundEnd_flag h₀]

/-! ### The statement -/

/-- The lock machine of R146, case by case. -/
theorem CableState.roundEnd_cases (x : CableState) :
    (x.frameMark = true → x.locked = false →
      x.roundEnd = { x with frameMark := false, silentRounds := 0, frameRounds := min 2 (x.frameRounds + 1),
                            locked := decide (2 ≤ x.frameRounds + 1) }) ∧
    (x.frameMark = true → x.locked = true → x.roundEnd = { x with frameMark := false, silentRounds := 0, frameRounds := 2 }) ∧
    (x.frameMark = false → x.locked = true → x.silentRounds < 2 →
      x.roundEnd = { x with frameRounds := 0, silentRounds := x.silentRounds + 1 }) ∧
    (x.frameMark = false → x.locked = true → 2 ≤ x.silentRounds →
      x.roundEnd = { x with frameRounds := 0, silentRounds := 3, locked := false, parityCount := 0, checkCount := 0 }) ∧
    (x.frameMark = false → x.locked = false → x.roundEnd = { x with frameRounds := 0 }) := by
  unfold CableState.roundEnd
  refine ⟨fun hm hl => ?_, fun hm hl => ?_, fun hm hl hs => ?_, fun hm hl hs => ?_, fun hm hl => ?_⟩
  · simp only [hm, hl, satAdd]
  · simp only [hm, hl]
  · have hn : ¬ 3 ≤ x.silentRounds + 1 := by omega
    simp only [hm, hl, if_neg hn]
  · have h3 : 3 ≤ x.silentRounds + 1 := by omega
    simp only [hm, hl, if_pos h3, CableState.clearCounters]
  · simp only [hm, hl]

theorem State.switches_iff (s : State) :
    s.switches = true ↔ ((s.line.cable s.line.active).roundEnd.locked = false ∧
      (s.line.cable (otherCable s.line.active)).roundEnd.locked = true) := by
  unfold State.switches
  rw [Bool.and_eq_true, Bool.not_eq_true']

/-- The check after the round end and its flag, where the check was judged as the records say. -/
theorem roundEnded_check (inp : Inputs) (s : State) {x : State} (e : checkRoundEnd { s with inputs := inp } = x) :
    (roundEnded inp s).line.check =
        (if s.switches && x.line.check.running then x.line.check.ends .aborted else x.line.check) ∧
      (roundEnded inp s).port.flags.getLsbD 4 = (s.switches && x.line.check.running || x.port.flags.getLsbD 4) := by
  rw [roundEnded_line, lineRoundEnd_check, roundEnded_lineFlag (by decide) (by decide) (by decide), lineRoundEnd_checkDone, e]
  exact ⟨rfl, rfl⟩

/-- Settles O10: the check is judged first, then the lock machines step, and then the two cables are tested on what they left. -/
theorem roundEndStepsTheLockMachinesAndTheCheck : Obligations.RoundEndStepsTheLockMachinesAndTheCheck := by
  refine ⟨fun inp s hc => ⟨roundEnded inp s, exec_roundEnd hc inp, ?_⟩,
    fun inp s hc => ⟨roundEnded inp s, exec_roundEnd hc inp, ?_⟩⟩
  · have hcable (c : Cable) : (roundEnded inp s).line.cable c = (s.line.cable c).roundEnd := by
      rw [roundEnded_line, lineRoundEnd_cable]
    have hactive : (roundEnded inp s).line.active = if s.switches then otherCable s.line.active else s.line.active := by
      rw [roundEnded_line, lineRoundEnd_active]
      rfl
    have hflag : (roundEnded inp s).port.flags.getLsbD 3 = (s.switches || s.port.flags.getLsbD 3) := by
      rw [roundEnded_lineFlag (by decide) (by decide) (by decide), lineRoundEnd_cableSwitch]
      rfl
    obtain ⟨_, _, _, _, _, hline⟩ := lineRoundEnd_line { s with inputs := inp }
    simp only [hcable]
    refine ⟨fun c => CableState.roundEnd_cases _, fun h h' => ?_, fun h => ?_, ?_, ?_, ?_⟩
    · have hs : s.switches = true := s.switches_iff.mpr ⟨h, h'⟩
      rw [hactive, hflag, hs]
      exact ⟨rfl, rfl⟩
    · have hs : s.switches = false := by rwa [← s.switches_iff, Bool.not_eq_true] at h
      rw [hactive, hflag, hs]
      exact ⟨rfl, rfl⟩
    · rw [roundEnded_line, hline]
    · rw [roundEnded_line, hline]
    · rw [roundEnded_line, hline]
  · have hactive : (roundEnded inp s).line.active ≠ s.line.active ↔ s.switches = true := by
      rw [roundEnded_line, lineRoundEnd_active]
      change (if s.switches then otherCable s.line.active else s.line.active) ≠ s.line.active ↔ _
      cases s.switches <;> simp
    have hcheck {x : State} (e : checkRoundEnd { s with inputs := inp } = x) := roundEnded_check inp s e
    dsimp only
    rw [hactive]
    cases hr : s.line.check.running with
    | false =>
      obtain ⟨h, hf⟩ := hcheck (checkRoundEnd_of_stopped hr)
      simp only [hr, Bool.and_false, Bool.false_eq_true, if_false, Bool.false_or] at h hf
      rw [h, hf]
      simp
    | true =>
      cases ha : s.line.check.armed with
      | false =>
        obtain ⟨h, hf⟩ := hcheck (checkRoundEnd_of_first hr ha)
        rw [h, hf]
        cases hsw : s.switches <;> simp [State.withCheck, hr, CableCheck.ends]
      | true =>
        by_cases hl : s.line.check.roundsLeft ≤ 1
        · obtain ⟨h, hf⟩ := hcheck (checkRoundEnd_of_last hr ha hl)
          have hn : ¬ 2 ≤ s.line.check.roundsLeft := by omega
          rw [h, hf]
          simp [State.withCheck, CableCheck.ends, CableCheck.judged, hl, hn, Attention.bit]
        · obtain ⟨h, hf⟩ := hcheck (checkRoundEnd_of_more hr ha (by show 2 ≤ s.line.check.roundsLeft; omega))
          rw [h, hf]
          cases hsw : s.switches <;> simp [State.withCheck, hr, ha, hl, CableCheck.ends, CableCheck.judged]

end Sys2Proof.Machine
end

section
/-! The figures of the settle point and the division of the quota (R42 to R54). -/

namespace Sys2Proof.Machine

open Sys2Proof

set_option Elab.async false

/-! ### The participants -/

theorem Entry.heard_iff (e : Entry) : e.heard = true ↔ e.status = .fresh ∨ e.status = .stale := by
  unfold Entry.heard
  rw [Bool.or_eq_true, decide_eq_true_eq, decide_eq_true_eq]

theorem mem_participants (s : State) (d : Nat) (p : Participant) :
    p ∈ s.participants d ↔ ∃ f c, (s.entry p.station).fields = some f ∧
      ((s.entry p.station).status = .fresh ∨ (s.entry p.station).status = .stale) ∧ f.polderClass = some c ∧
      p.committed = f.committed ∧ p.demand = if p.station = s.own then d else f.demand := by
  unfold State.participants
  simp only [List.mem_flatMap, List.mem_filterMap, State.participantAt_eq_some, Entry.heard_iff]
  constructor
  · rintro ⟨c, _, k, _, rfl, f, hf, hh, hc, h₁, h₂⟩
    exact ⟨f, c, hf, hh, hc, h₁, h₂⟩
  · rintro ⟨f, c, hf, hh, hc, h₁, h₂⟩
    exact ⟨c, mem_classesDown c, p.station, mem_stationList _, rfl, f, hf, hh, hc, h₁, h₂⟩

/-- One participant stands before another: a higher class, or the same class and a lower station number (R51). -/
def State.standsBefore (s : State) (p q : Participant) : Prop :=
  ∃ f g c d, (s.entry p.station).fields = some f ∧ (s.entry q.station).fields = some g ∧ f.polderClass = some c ∧
    g.polderClass = some d ∧ (d < c ∨ (c = d ∧ p.station < q.station))

theorem participants_pairwise (s : State) (d : Nat) : (s.participants d).Pairwise s.standsBefore := by
  unfold State.participants
  rw [List.pairwise_flatMap]
  refine ⟨fun c _ => ?_, classesDown_sorted.imp fun {c c'} hcc p hp q hq => ?_⟩
  · rw [List.pairwise_filterMap]
    refine stationList_sorted.imp fun {k k'} hkk p hp q hq => ?_
    obtain ⟨rfl, f, hf, _, hc, _⟩ := (State.participantAt_eq_some s d c _ p).mp hp
    obtain ⟨rfl, g, hg, _, hc', _⟩ := (State.participantAt_eq_some s d c _ q).mp hq
    exact ⟨f, g, c, c, hf, hg, hc, hc', .inr ⟨rfl, hkk⟩⟩
  · obtain ⟨k, _, hk⟩ := List.mem_filterMap.mp hp
    obtain ⟨k', _, hk'⟩ := List.mem_filterMap.mp hq
    obtain ⟨rfl, f, hf, _, hc, _⟩ := (State.participantAt_eq_some s d c k p).mp hk
    obtain ⟨rfl, g, hg, _, hc', _⟩ := (State.participantAt_eq_some s d c' k' q).mp hk'
    exact ⟨f, g, c, c', hf, hg, hc, hc', .inl hcc⟩

/-- A station takes part once. -/
theorem standsBefore_ne {s : State} {p q : Participant} (h : s.standsBefore p q) : p.station ≠ q.station := by
  obtain ⟨f, g, c, d, hf, hg, hc, hd, hlt⟩ := h
  intro e
  rw [e, hg] at hf
  obtain rfl := Option.some.inj hf
  rw [hc] at hd
  obtain rfl := Option.some.inj hd
  rcases hlt with h | ⟨_, h⟩
  · exact lt_irrefl _ h
  · rw [e] at h
    exact lt_irrefl _ h

/-- Settles O13: the participants are collected class by class, highest first, and within a class station by station. -/
theorem participantsStandInClassOrder : Obligations.ParticipantsStandInClassOrder :=
  fun s d _ => ⟨mem_participants s d, participants_pairwise s d⟩

/-! ### Reservations and passes -/

theorem foldl_sub_min {α : Type} (f : α → Nat) (l : List α) (q : Nat) :
    l.foldl (fun left k => left - min left (f k)) q = q - (l.map f).sum := by
  induction l generalizing q with
  | nil => simp
  | cons a l ih =>
    simp only [List.foldl_cons, ih, List.map_cons, List.sum_cons]
    omega

theorem keepPass_le (ps : List Participant) (r : Nat) : ∀ g ∈ (keepPass r ps).1, g.2 ≤ g.1.committed := by
  induction ps generalizing r with
  | nil => simp [keepPass]
  | cons p ps ih =>
    simp only [keepPass, List.mem_cons, forall_eq_or_imp]
    exact ⟨Nat.min_le_left _ _, ih _⟩

theorem fillPass_le {gs : List (Participant × Nat)} (h : ∀ g ∈ gs, g.2 ≤ g.1.committed) (r : Nat) :
    ∀ g ∈ (fillPass r gs).1, g.2 ≤ max g.1.committed g.1.demand := by
  induction gs generalizing r with
  | nil => simp [fillPass]
  | cons g gs ih =>
    obtain ⟨p, n⟩ := g
    obtain ⟨hn, hrest⟩ := List.forall_mem_cons.mp h
    simp only [fillPass, List.mem_cons, forall_eq_or_imp]
    refine ⟨?_, ih hrest _⟩
    dsimp only at hn ⊢
    omega

/-- The reservation of an entry, with that of the own entry 0 (R14). -/
def State.reservationOf (s : State) (k : Station) : Nat :=
  match (s.table.entries[k]).fields with
  | none => 0
  | some f =>
    if k = s.own ∨ (s.table.entries[k]).status ≠ .lost then 0
    else if (s.table.entries[k]).age < 248 then f.committed
    else min f.committed f.island

theorem entry_reservation {s : State} (h : s.cond = .running) (k : Station) : (s.entry k).reservation = s.reservationOf k := by
  unfold State.reservationOf
  by_cases hk : k = s.own
  · rw [hk, State.entry_own h]
    split <;> simp [Entry.reservation, State.ownEntry]
  · rw [State.entry_of_ne hk]
    unfold Entry.reservation
    cases hf : (s.table.entries[k]).fields with
    | none => cases (s.table.entries[k]).status <;> rfl
    | some f => cases hs : (s.table.entries[k]).status <;> simp [hk]

theorem remainder_eq {s : State} (h : s.cond = .running) (qd : Nat) :
    s.remainderAfterReservations qd = qd - (stationList.map s.reservationOf).sum := by
  unfold State.remainderAfterReservations
  rw [foldl_sub_min (fun k => (s.entry k).reservation)]
  simp only [entry_reservation h]

/-- A list is its values at the indices below its length. -/
theorem eq_map_range {l : List Nat} {n : Nat} {f : Nat → Nat} (hl : l.length = n) (hf : ∀ i, i < n → l.getD i 0 = f i) :
    l = (List.range n).map f := by
  refine List.ext_getElem (by simp [hl]) fun i h₁ h₂ => ?_
  have := hf i (by omega)
  rw [List.getD_eq_getElem _ _ h₁] at this
  simpa using this

/-- What a participant is short of its demand after the keep pass. -/
theorem map_short {ps : List Participant} {gs : List (Participant × Nat)} (h : gs.map Prod.fst = ps) :
    gs.map (fun g => g.1.demand - g.2) =
      (List.range ps.length).map (fun i => (ps.map Participant.demand).getD i 0 - (gs.map Prod.snd).getD i 0) := by
  subst h
  refine eq_map_range (by simp) fun i hi => ?_
  have hi' : i < gs.length := by simpa using hi
  simp [List.getD_eq_getElem?_getD, hi']

/-! ### The grants -/

/-- The grant of the keep pass to the participant at place `i` of a remainder (R52). -/
def keptAt (ps : List Participant) (remainder i : Nat) : Nat :=
  min ((ps.map Participant.committed).getD i 0) (remainder - ((ps.map Participant.committed).take i).sum)

/-- What the participant at place `i` is short of its demand after the keep pass (R53). -/
def shortAt (ps : List Participant) (remainder i : Nat) : Nat :=
  (ps.map Participant.demand).getD i 0 - keptAt ps remainder i

/-- The final grant of the participant at place `i` (R53). -/
def grantAt (ps : List Participant) (remainder i : Nat) : Nat :=
  keptAt ps remainder i + min (shortAt ps remainder i)
    (remainder - (ps.map Participant.committed).sum - ((List.range i).map (shortAt ps remainder)).sum)

/-- The two passes give each participant, in order, the grant of its place, and give out no more than the remainder. -/
theorem passes_spec (ps : List Participant) (r : Nat) :
    (fillPass (keepPass r ps).2 (keepPass r ps).1).1.map Prod.fst = ps ∧
      (fillPass (keepPass r ps).2 (keepPass r ps).1).1.map Prod.snd = (List.range ps.length).map (grantAt ps r) ∧
      ((List.range ps.length).map (grantAt ps r)).sum ≤ r := by
  obtain ⟨hfst, hleft, hkept⟩ := keepPass_spec ps r
  obtain ⟨hfst', hfill⟩ := fillPass_spec (keepPass r ps).1 (keepPass r ps).2
  have hlen : (keepPass r ps).1.length = ps.length := by
    simpa using congrArg List.length hfst
  have hlen' : (fillPass (keepPass r ps).2 (keepPass r ps).1).1.length = ps.length := by
    simpa [hlen] using congrArg List.length hfst'
  have hshort : (keepPass r ps).1.map (fun g => g.1.demand - g.2) = (List.range ps.length).map (shortAt ps r) := by
    rw [map_short hfst]
    refine List.map_congr_left fun i hi => ?_
    rw [hkept i (List.mem_range.mp hi)]
    rfl
  have hsnd : (fillPass (keepPass r ps).2 (keepPass r ps).1).1.map Prod.snd = (List.range ps.length).map (grantAt ps r) := by
    refine eq_map_range (by rw [List.length_map, hlen']) fun i hi => ?_
    rw [hfill i (by omega), hkept i hi, hshort, hleft]
    have hget : ((List.range ps.length).map (shortAt ps r)).getD i 0 = shortAt ps r i := by
      simp [List.getD_eq_getElem?_getD, hi]
    have htake : ((List.range ps.length).map (shortAt ps r)).take i = (List.range i).map (shortAt ps r) := by
      rw [← List.map_take, List.take_range, Nat.min_eq_left (Nat.le_of_lt hi)]
    rw [hget, htake]
    rfl
  have htotal := keepPass_total ps r
  have htotal' := fillPass_total (keepPass r ps).1 (keepPass r ps).2
  refine ⟨hfst'.trans hfst, hsnd, ?_⟩
  rw [← hsnd]
  omega

/-- The first of a list whose figures are all different is the one with the figure. -/
theorem find?_of_pairwise_ne {α β : Type} [DecidableEq β] (f : α → β) {l : List α} (h : l.Pairwise (fun a b => f a ≠ f b)) {i : Nat}
    {a : α} (ha : l[i]? = some a) : l.find? (fun x => decide (f x = f a)) = some a := by
  induction l generalizing i with
  | nil => simp at ha
  | cons b l ih =>
    obtain ⟨hb, hl⟩ := List.pairwise_cons.mp h
    cases i with
    | zero =>
      obtain rfl : b = a := by simpa using ha
      simp
    | succ i =>
      have ha' : l[i]? = some a := by simpa using ha
      have hne : f b ≠ f a := hb a (List.mem_of_getElem? ha')
      rw [List.find?_cons_of_neg (by simpa using hne)]
      exact ih hl ha'

theorem grants_eq (s : State) (qd d : Nat) :
    s.grants qd d = (fillPass (keepPass (s.remainderAfterReservations qd) (s.participants d)).2
      (keepPass (s.remainderAfterReservations qd) (s.participants d)).1).1 := rfl

/-- The own grant is the grant of the own place (R53). -/
theorem ownGrant_spec (s : State) (qd d : Nat) :
    (∀ i p, (s.participants d)[i]? = some p → p.station = s.own →
      s.ownGrant qd d = grantAt (s.participants d) (s.remainderAfterReservations qd) i) ∧
    ((∀ p ∈ s.participants d, p.station ≠ s.own) → s.ownGrant qd d = 0) := by
  obtain ⟨hfst, hsnd, _⟩ := passes_spec (s.participants d) (s.remainderAfterReservations qd)
  rw [← grants_eq] at hfst hsnd
  unfold State.ownGrant
  constructor
  · intro i p hp hown
    have hi : i < (s.participants d).length := (List.getElem?_eq_some_iff.mp hp).1
    have hlen : (s.grants qd d).length = (s.participants d).length := by
      rw [← List.length_map (f := Prod.fst), hfst]
    obtain ⟨g, hg⟩ : ∃ g, (s.grants qd d)[i]? = some g := ⟨_, List.getElem?_eq_getElem (by omega)⟩
    have hg₁ : g.1 = p := by
      have := congrArg (fun l => l[i]?) hfst
      simpa [hg, hp] using this
    have hg₂ : g.2 = grantAt (s.participants d) (s.remainderAfterReservations qd) i := by
      have := congrArg (fun l => l[i]?) hsnd
      simpa [hg, hi] using this
    have hne : (s.grants qd d).Pairwise (fun a b => a.1.station ≠ b.1.station) := by
      have hpw := (participants_pairwise s d).imp (fun h => standsBefore_ne h)
      rw [← hfst, List.pairwise_map] at hpw
      exact hpw
    have hfind := find?_of_pairwise_ne (fun g : Participant × Nat => g.1.station) hne hg
    rw [hg₁, hown] at hfind
    rw [hfind]
    exact hg₂
  · intro hn
    have hnone : (s.grants qd d).find? (fun g => decide (g.1.station = s.own)) = none := by
      refine List.find?_eq_none.mpr fun g hg => ?_
      have hmem : g.1 ∈ s.participants d := by
        rw [← hfst]
        exact List.mem_map_of_mem hg
      simpa using hn g.1 hmem
    rw [hnone]
    rfl

/-- Settles O12: the passes give out what the reservations leave, place by place. -/
theorem grantsAndReservationsStayWithinTheQuota : Obligations.GrantsAndReservationsStayWithinTheQuota := by
  refine ⟨fun qd ps rs => ?_, fun qd d s hc => ?_⟩
  · dsimp only
    have hleft : rs.foldl (fun left r => left - min left r) qd = qd - rs.sum := by
      simpa using foldl_sub_min id rs qd
    obtain ⟨hfst, _, _⟩ := keepPass_spec ps (qd - rs.sum)
    obtain ⟨hfst', _⟩ := fillPass_spec (keepPass (qd - rs.sum) ps).1 (keepPass (qd - rs.sum) ps).2
    have htotal := keepPass_total ps (qd - rs.sum)
    have htotal' := fillPass_total (keepPass (qd - rs.sum) ps).1 (keepPass (qd - rs.sum) ps).2
    rw [hleft]
    exact ⟨by omega, hfst, hfst'.trans hfst, keepPass_le _ _, fillPass_le (keepPass_le _ _) _, fun _ => rfl⟩
  · obtain ⟨hfst, hsnd, hsum⟩ := passes_spec (s.participants d) (s.remainderAfterReservations qd)
    rw [← grants_eq] at hfst hsnd
    obtain ⟨hown, hnone⟩ := ownGrant_spec s qd d
    have hr := remainder_eq hc qd
    rw [hr] at hsnd hsum hown
    refine ⟨entry_reservation hc, hr, hfst, hsnd, ?_, hown, hnone⟩
    change _ + ((List.range _).map (grantAt (s.participants d) (qd - (stationList.map s.reservationOf).sum))).sum ≤ qd
    have hle : qd - (stationList.map s.reservationOf).sum ≤ qd := Nat.sub_le _ _
    refine le_trans (Nat.add_le_add_left hsum _) ?_
    change qd - (qd - (stationList.map s.reservationOf).sum) + _ ≤ qd
    omega

end Sys2Proof.Machine
end

section
/-! The settle point: its figures and what it writes (R42 to R49, R54). -/

namespace Sys2Proof.Machine

open Sys2Proof

set_option Elab.async false

/-- A state with the settle point of the round taken. -/
def State.settleMarked (s : State) : State := { s with timer := { s.timer with settleTaken := true } }

/-- What a settle point leaves of a running part that has not taken one in the round. -/
def settled (s : State) : State := follow (settleWork s.settleMarked)

theorem exec_settlePoint {s : State} (h : s.cond = .running) (ht : s.timer.settleTaken = false) :
    exec .settlePoint s = .next (settled s) := by
  have hw : takeSettlePoint s = settleWork s.settleMarked := if_neg (by rw [ht]; decide)
  refine congrArg Host.Outcome.next ((whenRunning_of_running h takeSettlePoint).trans ?_)
  rw [hw, settled]

theorem exec_settlePoint_taken {s : State} (h : s.cond = .running) (ht : s.timer.settleTaken = true) :
    exec .settlePoint s = .next (follow s) := by
  have hw : takeSettlePoint s = s := if_pos ht
  refine congrArg Host.Outcome.next ((whenRunning_of_running h takeSettlePoint).trans ?_)
  rw [hw]

/-- The figures do not look at the mark. -/
theorem settleFigures_settleMarked (s : State) : settleFigures s.settleMarked = settleFigures s := rfl

theorem settleWork_frame (s : State) :
    settleWork s.settleMarked =
      { s with timer := { s.timer with settleTaken := true }, alloc := (settleWork s.settleMarked).alloc
               pumps := (settleWork s.settleMarked).pumps, players := (settleWork s.settleMarked).players
               drives := (settleWork s.settleMarked).drives } := by
  obtain ⟨_, _, _, _, e⟩ := settleWork_changes s.settleMarked
  rw [e]
  rfl

theorem settled_timer (s : State) : (settled s).timer = { s.timer with settleTaken := true } := by
  rw [settled, follow_timer, settleWork_frame]

/-- The settle point writes the timer's mark, the allocation unit and the pumps with their players and drives, and what follows. -/
theorem settled_frame (s : State) :
    settled s = follow { s with timer := (settled s).timer, alloc := (settled s).alloc, pumps := (settled s).pumps
                                players := (settled s).players, drives := (settled s).drives } := by
  rw [settled_timer]
  unfold settled
  rw [follow_alloc, follow_pumps, follow_players, follow_drives, ← settleWork_frame]

/-- The figures that stand after the settle point are those formed at it. -/
theorem settled_figures (s : State) :
    ∃ w b, (settled s).alloc = { settleFigures s with startWanted := w, shedSinceSettle := b } := by
  obtain ⟨w, b, e⟩ := settleWork_alloc s.settleMarked
  exact ⟨w, b, by rw [settled, follow_alloc, e, settleFigures_settleMarked]⟩

/-! ### The offers -/

theorem mem_offers {s : State} (h : s.cond = .running) (q : Nat) :
    q ∈ stationList.filterMap (fun k => (s.entry k).offerHeard) ↔ s.offerConsidered q := by
  have hoffer (e : Entry) : e.offerHeard = some q ↔ ∃ f, e.fields = some f ∧ e.heard = true ∧ f.offer = some q := by
    unfold Entry.offerHeard
    cases e.fields with
    | none => simp
    | some f => cases e.heard <;> simp
  have hown : (s.entry s.own).offerHeard = s.ownOffer := by
    rw [State.entry_own h]
    rfl
  unfold State.offerConsidered State.heardFields
  rw [List.mem_filterMap]
  constructor
  · rintro ⟨k, _, hk⟩
    by_cases hke : k = s.own
    · rw [hke, hown] at hk
      exact .inl hk
    · rw [State.entry_of_ne hke, hoffer] at hk
      obtain ⟨f, hf, hh, ho⟩ := hk
      exact .inr ⟨k, f, ⟨hke, (Entry.heard_iff _).mp hh, hf⟩, ho⟩
  · rintro (ho | ⟨k, f, ⟨hke, hst, hf⟩, ho⟩)
    · exact ⟨s.own, mem_stationList _, by rw [hown, ho]⟩
    · refine ⟨k, mem_stationList k, ?_⟩
      rw [State.entry_of_ne hke, hoffer]
      exact ⟨f, hf, (Entry.heard_iff _).mpr hst, ho⟩

theorem smallestOffer_of_least {s : State} (h : s.cond = .running) {q : Nat} (hq : s.offerConsidered q)
    (hmin : ∀ r, s.offerConsidered r → q ≤ r) : s.smallestOffer = some q := by
  unfold State.smallestOffer
  rw [List.min?_eq_some_iff]
  exact ⟨(mem_offers h q).mpr hq, fun r hr => hmin r ((mem_offers h r).mp hr)⟩

theorem smallestOffer_of_none {s : State} (h : s.cond = .running) (hn : ∀ q, ¬ s.offerConsidered q) : s.smallestOffer = none := by
  unfold State.smallestOffer
  rw [List.min?_eq_none_iff, List.eq_nil_iff_forall_not_mem]
  exact fun q hq => hn q ((mem_offers h q).mp hq)

/-! ### The figures -/

/-- The base quota with the held quota and its age, as a settle point forms them (R46). -/
def State.quotaNow (s : State) : Nat × Option Nat × Nat :=
  baseQuota s.smallestOffer s.alloc.heldQuota s.alloc.heldAge s.straps.fallbackQuota

theorem settleFigures_eq (s : State) :
    settleFigures s =
      { heldQuota := s.quotaNow.2.1, heldAge := s.quotaNow.2.2, qd := districtQuota s.quotaNow.1 s.table.accepted
        entitlement := if s.timer.mode = .member then s.ownGrant (districtQuota s.quotaNow.1 s.table.accepted) s.demandNow
                       else s.islandShare
        demand := s.demandNow
        target := min (if s.timer.mode = .member then
            s.ownGrant (districtQuota s.quotaNow.1 s.table.accepted) s.demandNow else s.islandShare) s.demandNow
        startWanted := none, shedSinceSettle := false } := rfl

theorem quotaNow_of_offer {s : State} {q : Nat} (h : s.smallestOffer = some q) : s.quotaNow = (q, some q, 0) := by
  unfold State.quotaNow
  rw [h]
  rfl

theorem quotaNow_of_none {s : State} (h : s.smallestOffer = none) :
    s.quotaNow =
      (if min 255 (s.alloc.heldAge + 1) < 240 then s.alloc.heldQuota.getD (8 * s.straps.fallback.val)
       else 8 * s.straps.fallback.val, s.alloc.heldQuota, min 255 (s.alloc.heldAge + 1)) := by
  unfold State.quotaNow
  rw [h]
  rfl

theorem districtQuota_eq (base : Nat) (f : FlagSet) :
    districtQuota base f = if f.getLsbD 0 then 0 else if f.getLsbD 3 then base / 2 else base := rfl

/-- Settles O11: the figures are formed of the offers considered and of what is held, before any stop, and no stop changes them. -/
theorem settlePointFormsDemandQuotaAndTarget : Obligations.SettlePointFormsDemandQuotaAndTarget := by
  refine ⟨fun s hc ht => ⟨settled s, exec_settlePoint hc ht, ?_⟩, fun s hc ht => exec_settlePoint_taken hc ht⟩
  obtain ⟨w, b, e⟩ := settled_figures s
  have htimer := settled_timer s
  have hframe := settled_frame s
  rw [e, settleFigures_eq]
  refine ⟨demandNow_eq s, fun q hq hmin => ?_, fun hn => ?_, fun hm => ?_, fun hm => ?_, rfl, htimer, ?_⟩
  · have hquota := quotaNow_of_offer (smallestOffer_of_least hc hq hmin)
    rw [hquota]
    exact ⟨rfl, rfl, districtQuota_eq _ _⟩
  · have hquota := quotaNow_of_none (smallestOffer_of_none hc hn)
    rw [hquota]
    refine ⟨rfl, rfl, fun base hheld hold => ?_⟩
    have hbase : (if min 255 (s.alloc.heldAge + 1) < 240 then s.alloc.heldQuota.getD (8 * s.straps.fallback.val)
        else 8 * s.straps.fallback.val) = base := by
      split
      · rw [hheld (by omega)]
        rfl
      · rw [hold (by omega)]
    dsimp only
    rw [hbase]
    exact districtQuota_eq _ _
  · exact if_neg hm
  · exact if_pos hm
  · rw [← settleFigures_eq, ← e]
    exact hframe

end Sys2Proof.Machine
end

section
/-! The stops of the settle point (R54 to R59). -/

namespace Sys2Proof.Machine

open Sys2Proof

set_option Elab.async false

/-! ### The committed discharge -/

/-- The number of pumps that count for C (R55). -/
def State.committedCount (s : State) : Nat := (pumpList.filter (fun k => (s.pump k).state.committed)).length

theorem State.committed_count (s : State) : s.committed = s.committedCount * s.rating := rfl

theorem State.committedCount_le (s : State) : s.committedCount ≤ 4 := List.length_filter_le _ _

/-- One pump out of C, and the rest as they were, makes one pump less. -/
theorem length_filter_succ {p q : PumpIx → Bool} {k : PumpIx} (hp : p k = true) (hq : q k = false) {l : List PumpIx}
    (ho : ∀ j ∈ l, j ≠ k → q j = p j) (hl : l.Nodup) (hk : k ∈ l) : (l.filter p).length = (l.filter q).length + 1 := by
  induction l with
  | nil => simp at hk
  | cons a l ih =>
    obtain ⟨ha, hl'⟩ := List.nodup_cons.mp hl
    by_cases hak : a = k
    · subst hak
      have hsame : l.filter q = l.filter p := by
        refine List.filter_congr fun j hj => ho j (List.mem_cons_of_mem _ hj) ?_
        rintro rfl
        exact ha hj
      rw [List.filter_cons_of_pos hp, List.filter_cons_of_neg (by simp [hq]), hsame, List.length_cons]
    · have hk' : k ∈ l := by simpa [Ne.symm hak] using hk
      have ih' := ih (fun j hj => ho j (List.mem_cons_of_mem _ hj)) hl' hk'
      have haq : q a = p a := ho a List.mem_cons_self hak
      cases hpa : p a with
      | true =>
        rw [List.filter_cons_of_pos hpa, List.filter_cons_of_pos (by rw [haq, hpa]), List.length_cons, List.length_cons, ih']
      | false =>
        rw [List.filter_cons_of_neg (by simp [hpa]), List.filter_cons_of_neg (by simp [haq, hpa]), ih']

/-- Without a pump to shed, C is 0. -/
theorem committedCount_of_no_shed {s : State} (h : shedChoice s = none) : s.committedCount = 0 := by
  unfold State.committedCount
  rw [List.length_eq_zero_iff, List.filter_eq_nil_iff]
  intro k _
  rw [shedChoice_eq_none s h k]
  decide

/-! ### Sheds -/

/-- The pump `k` is to be shed before the pump `j`: it is starting, or `j` is not and comes after it among the RUNNING (R57). -/
def State.shedsBefore (s : State) (k j : PumpIx) : Prop :=
  ((s.pump k).state = .priming ∨ (s.pump k).state = .rampUp) ∨
    (¬ ((s.pump j).state = .priming ∨ (s.pump j).state = .rampUp) ∧
      ((s.pump j).runMinutes < (s.pump k).runMinutes ∨ ((s.pump j).runMinutes = (s.pump k).runMinutes ∧ j < k)))

theorem PumpState.starting_iff (a : PumpState) : a.starting = true ↔ a = .priming ∨ a = .rampUp := by
  cases a <;> decide

/-- The pump that is shed comes before every other that counts for C. -/
theorem shedChoice_before {s : State} {k j : PumpIx} (h : shedChoice s = some k) (hj : (s.pump j).state.committed = true)
    (hne : j ≠ k) : s.shedsBefore k j := by
  unfold shedChoice at h
  split at h
  · rename_i i hi
    obtain rfl := Option.some.inj h
    exact .inl ((PumpState.starting_iff _).mp (List.find?_some (p := fun k => (s.pump k).state.starting) hi))
  · rename_i hf
    have hns : ¬ (s.pump j).state.starting = true := List.find?_eq_none.mp hf j (mem_pumpList j)
    have hrun : (s.pump j).state = .running := by
      cases hst : (s.pump j).state <;> simp [hst, PumpState.starting, PumpState.committed] at hns hj ⊢
    refine .inr ⟨fun hst => hns ((PumpState.starting_iff _).mpr hst), stopChoice_greatest s _ k h j ?_ hne⟩
    simp [mem_pumpList, hrun]

theorem shedStop_keepsWork (k : PumpIx) (s : State) (h : (s.pump k).state.committed = true) :
    (s.pump k).keepsWork ((shedStop k s).pump k) := by
  unfold shedStop
  cases hs : (s.pump k).state
  case priming => simpa using Pump.keepsWork_toResting (s.pump k)
  case rampUp =>
    refine Pump.keepsWork_of_eq ?_ ?_ <;> simp [Pump.leaveRun_eq]
  case running =>
    refine Pump.keepsWork_of_eq ?_ ?_ <;> simp [Pump.leaveRun_eq]
  all_goals simp [hs, PumpState.committed] at h

/-- What a shed makes of a pump: it rests or ramps down by its own down play, and its work is kept (R56, R83, R99). -/
def State.shedFrom (s t : State) (k : PumpIx) : Prop :=
  ((s.pump k).state = .priming ∧ (t.pump k).state = .resting ∨
    (s.pump k).state ≠ .priming ∧ (t.pump k).state = .rampDown ∧ (t.player k).start = some (s.pointers[k]).down ∧
      (t.player k).mode = some .oneShot) ∧
  (s.pump k).keepsWork (t.pump k)

/-- A pump and its player stand. -/
def State.pumpStands (s t : State) (k : PumpIx) : Prop := t.pump k = s.pump k ∧ t.player k = s.player k

/-- Sheds, one at a time, until C is within a limit: C ends within it and was above it before the last shed; the other pumps stand;
and each pump shed comes before each one that still counts. -/
structure ShedTo (limit : Nat) (s t : State) : Prop where
  within : t.committed ≤ limit
  last : limit < s.committed → limit < t.committed + s.rating
  none : s.committed ≤ limit → t.committed = s.committed
  stands : ∀ k, (s.pump k).state.committed = false → s.pumpStands t k
  kept : ∀ k, (t.pump k).state.committed = true → s.pumpStands t k
  shed : ∀ k, (s.pump k).state.committed = true → (t.pump k).state.committed = false →
    s.shedFrom t k ∧ ∀ j, (t.pump j).state.committed = true → s.shedsBefore k j

theorem ShedTo.refl {limit : Nat} {s : State} (h : s.committed ≤ limit) : ShedTo limit s s where
  within := h
  last hl := absurd h (by omega)
  none _ := rfl
  stands _ _ := ⟨rfl, rfl⟩
  kept _ _ := ⟨rfl, rfl⟩
  shed k hk hn := by rw [hk] at hn; cases hn

theorem shedStop_frame (k : PumpIx) (s : State) :
    (shedStop k s).straps = s.straps ∧ (shedStop k s).pointers = s.pointers := by
  unfold shedStop
  split <;> exact ⟨rfl, rfl⟩

/-- A shed stop of the chosen pump and what further sheds make of its outcome. -/
theorem ShedTo.cons {limit : Nat} {s t : State} {k : PumpIx} (hk : shedChoice s = some k) (hlim : limit < s.committed)
    (h : ShedTo limit (shedStop k s) t) : ShedTo limit s t := by
  have hkc := shedChoice_committed s k hk
  obtain ⟨hout, hothers, hstop⟩ := shedStop_committed k s hkc
  obtain ⟨hstraps, hptr⟩ := shedStop_frame k s
  obtain ⟨hkp, hkq⟩ := h.stands k hout
  have hcount : s.committedCount = (shedStop k s).committedCount + 1 :=
    length_filter_succ hkc hout (fun j _ hj => by rw [(hothers j hj).1]) (by decide) (mem_pumpList k)
  have hrating : (shedStop k s).rating = s.rating := by
    unfold State.rating
    rw [hstraps]
  have hless : s.committed = (shedStop k s).committed + s.rating := by
    rw [State.committed_count, State.committed_count, hcount, hrating, Nat.succ_mul]
  have hne {j : PumpIx} (hj : (t.pump j).state.committed = true) : j ≠ k := by
    rintro rfl
    rw [hkp, hout] at hj
    cases hj
  refine ⟨h.within, fun _ => ?_, fun hle => by omega, fun j hj => ?_, fun j hj => ?_, fun j hj hn => ?_⟩
  · by_cases hl : limit < (shedStop k s).committed
    · have := h.last hl
      rwa [hrating] at this
    · have := h.none (by omega)
      omega
  · have hjk : j ≠ k := by
      rintro rfl
      rw [hkc] at hj
      cases hj
    obtain ⟨h₁, h₂⟩ := hothers j hjk
    obtain ⟨h₃, h₄⟩ := h.stands j (by rw [h₁, hj])
    exact ⟨h₃.trans h₁, h₄.trans h₂⟩
  · obtain ⟨h₁, h₂⟩ := hothers j (hne hj)
    obtain ⟨h₃, h₄⟩ := h.kept j hj
    exact ⟨h₃.trans h₁, h₄.trans h₂⟩
  · by_cases hjk : j = k
    · subst hjk
      refine ⟨⟨?_, ?_⟩, fun i hi => ?_⟩
      · rw [hkp, hkq]
        exact hstop
      · rw [hkp]
        exact shedStop_keepsWork j s hkc
      · have hi' : (s.pump i).state.committed = true := by
          rw [← (hothers i (hne hi)).1, ← (h.kept i hi).1]
          exact hi
        exact shedChoice_before hk hi' (hne hi)
    · obtain ⟨h₁, h₂⟩ := hothers j hjk
      obtain ⟨⟨hs, hw⟩, hb⟩ := h.shed j (by rw [h₁, hj]) hn
      rw [h₁] at hs hw
      rw [hptr] at hs
      refine ⟨⟨hs, hw⟩, fun i hi => ?_⟩
      have := hb i hi
      unfold State.shedsBefore at this ⊢
      rwa [h₁, (hothers i (hne hi)).1] at this

end Sys2Proof.Machine
end

section
/-! What the settle point stops and what it wants started (R54 to R60). -/

namespace Sys2Proof.Machine

open Sys2Proof

set_option Elab.async false

/-- With fuel for every pump that counts, the sheds bring C within the limit (R56). -/
theorem shedUntil_shedTo {limit n : Nat} {s : State} (h : s.committedCount ≤ n) : ShedTo limit s (shedUntil limit n s) := by
  induction n generalizing s with
  | zero =>
    refine ShedTo.refl ?_
    rw [State.committed_count, Nat.le_zero.mp h, Nat.zero_mul]
    exact Nat.zero_le _
  | succ n ih =>
    unfold shedUntil
    by_cases hl : limit < s.committed
    · rw [if_pos hl]
      cases hk : shedChoice s with
      | none =>
        rw [State.committed_count, committedCount_of_no_shed hk, Nat.zero_mul] at hl
        exact absurd hl (Nat.not_lt_zero _)
      | some k =>
        have hkc := shedChoice_committed s k hk
        obtain ⟨hout, hothers, _⟩ := shedStop_committed k s hkc
        have hcount : s.committedCount = (shedStop k s).committedCount + 1 :=
          length_filter_succ hkc hout (fun j _ hj => by rw [(hothers j hj).1]) (by decide) (mem_pumpList k)
        exact ShedTo.cons hk hl (ih (by omega))
    · rw [if_neg hl]
      exact ShedTo.refl (by omega)

/-! ### The state in which the stops are made, and what they leave -/

/-- The state with the figures of the settle point formed and no stop made. -/
def figured (s : State) : State := { s.settleMarked with alloc := settleFigures s }

/-- The state with the stops of the settle point made. -/
def stopped (s : State) : State := settleStops (figured s)

theorem settleStops_changes (s : State) :
    ∃ p' q' d', settleStops s = { s with pumps := p', players := q', drives := d' } := by
  unfold settleStops
  split
  · exact shedUntil_changes _ _ s
  · split
    · exact demandStop_changes _ _ s
    · exact ⟨_, _, _, rfl⟩

theorem figured_committed (s : State) : (figured s).committed = s.committedDischarge := State.committed_eq s

theorem settled_eq (s : State) :
    settled s = follow { stopped s with alloc := { settleFigures s with
      startWanted := startWantedNow (decide ((settleFigures s).entitlement < s.committedDischarge)) (stopped s)
      shedSinceSettle := decide ((settleFigures s).entitlement < s.committedDischarge) } } := by
  have ha : (stopped s).alloc = settleFigures s := by
    obtain ⟨_, _, _, e⟩ := settleStops_changes (figured s)
    rw [stopped, e]
    rfl
  have hw := settleWork_eq s.settleMarked
  rw [settleFigures_settleMarked] at hw
  rw [settled, hw, ← figured_committed]
  change follow { stopped s with alloc := { (stopped s).alloc with
    startWanted := startWantedNow (decide ((settleFigures s).entitlement < (figured s).committed)) (stopped s)
    shedSinceSettle := decide ((settleFigures s).entitlement < (figured s).committed) } } = _
  rw [ha]

theorem settled_alloc (s : State) :
    (settled s).alloc = { settleFigures s with
      startWanted := startWantedNow (decide ((settleFigures s).entitlement < s.committedDischarge)) (stopped s)
      shedSinceSettle := decide ((settleFigures s).entitlement < s.committedDischarge) } := by
  rw [settled_eq, follow_alloc]

theorem settled_pump (s : State) (k : PumpIx) :
    (settled s).pump k = (stopped s).pump k ∧ (settled s).player k = (stopped s).player k := by
  rw [settled_eq, follow_pump, follow_player]
  exact ⟨rfl, rfl⟩

theorem stopped_frame (s : State) :
    (stopped s).straps = s.straps ∧ (stopped s).table = s.table ∧ (stopped s).gauge = s.gauge ∧
      (stopped s).timer.mode = s.timer.mode ∧ (stopped s).alloc = settleFigures s := by
  obtain ⟨_, _, _, e⟩ := settleStops_changes (figured s)
  rw [stopped, e]
  exact ⟨rfl, rfl, rfl, rfl, rfl⟩

theorem settled_committed (s : State) : (settled s).committedDischarge = (stopped s).committed := by
  rw [State.committed_eq, settled_eq]
  unfold State.committedDischarge
  rw [follow_straps]
  simp only [follow_pump]
  rfl

/-! ### Demand stops -/

/-- The pump that a demand stop is issued to at a demand `d` (R58). -/
def State.demandStops (s : State) (d : Nat) (k : PumpIx) : Prop :=
  ((s.pump k).state = .running ∧ (s.pump k).pastMinRun = true) ∧ s.gauge.flood = false ∧
    s.table.accepted.getLsbD 1 = false ∧ d + (s.straps.rating.val + 1) ≤ s.committedDischarge ∧
    (∀ j, (s.pump j).state = .running → (s.pump j).finishing = false) ∧
    ∀ j, j ≠ k → (s.pump j).state = .running ∧ (s.pump j).pastMinRun = true →
      ((s.pump j).runMinutes < (s.pump k).runMinutes ∨ ((s.pump j).runMinutes = (s.pump k).runMinutes ∧ j < k))

theorem demandStopChoice_spec {s : State} {k : PumpIx} (h : demandStopChoice s = some k) : s.demandStops s.alloc.demand k := by
  obtain ⟨hr, hp, hf, hstop, hc⟩ := demandStopChoice_eq_some s k h
  rw [State.committed_eq] at hc
  unfold demandStopChoice at h
  dsimp only at h
  split at h
  · cases h
  · rename_i hn
    rw [if_pos (by rw [State.committed_eq]; exact hc)] at h
    simp only [Bool.or_eq_true, not_or] at hn
    obtain ⟨_, hfin⟩ := hn
    refine ⟨⟨hr, hp⟩, hf, hstop, hc, fun j hj => ?_, fun j hne ⟨hjr, hjp⟩ => ?_⟩
    · have := fun hfj => hfin (List.any_eq_true.mpr ⟨j, by simp [mem_pumpList, hj], hfj⟩)
      simpa using this
    · exact stopChoice_greatest s _ k h j (by simp [mem_pumpList, hjr, hjp]) hne

theorem demandStopChoice_of {s : State} {k : PumpIx} (h : s.demandStops s.alloc.demand k) : demandStopChoice s = some k := by
  obtain ⟨⟨hr, hp⟩, hf, hstop, hc, hfin, hbest⟩ := h
  have hmem : k ∈ (pumpList.filter (fun k => decide ((s.pump k).state = .running))).filter (fun k => (s.pump k).pastMinRun) := by
    simp [mem_pumpList, hr, hp]
  have hchoice : demandStopChoice s =
      stopChoice s ((pumpList.filter (fun k => decide ((s.pump k).state = .running))).filter (fun k => (s.pump k).pastMinRun)) := by
    unfold demandStopChoice
    dsimp only
    have hany : (pumpList.filter (fun k => decide ((s.pump k).state = .running))).any (fun k => (s.pump k).finishing) = false := by
      rw [List.any_eq_false]
      intro j hj
      simpa using hfin j (by simpa [mem_pumpList] using hj)
    rw [hany, hf, if_neg (by simpa [districtStop] using hstop), if_pos (by rw [State.committed_eq]; exact hc)]
  rw [hchoice]
  cases hs : stopChoice s _ with
  | none =>
    rw [stopChoice_eq_none s _ hs] at hmem
    cases hmem
  | some i =>
    by_cases hik : k = i
    · rw [hik]
    · have hi := stopChoice_mem s _ i hs
      have hki := stopChoice_greatest s _ i hs k hmem hik
      simp only [List.mem_filter, decide_eq_true_eq] at hi
      have hkb := hbest i (Ne.symm hik) ⟨hi.1.2, hi.2⟩
      rw [Fin.lt_def] at hki hkb
      omega

/-- A demand stop of a RUNNING pump past minimum run that is not finishing (R84). -/
theorem demandStop_eq {s : State} {k : PumpIx} (hr : (s.pump k).state = .running) (hp : (s.pump k).pastMinRun = true)
    (hf : (s.pump k).finishing = false) : demandStop false k s = markFinishing k s := by
  simp [demandStop, hr, hp, hf]

theorem markFinishing_of_playing {s : State} {k : PumpIx} (h : (s.player k).playing = true) :
    (markFinishing k s).pump k = { s.pump k with finishing := true } ∧
      (markFinishing k s).player k = { s.player k with finish := true } := by
  unfold markFinishing Player.requestFinish
  rw [if_pos h, if_pos h, State.pump_setPlayer, State.pump_setPump_self, State.player_setPlayer_self]
  exact ⟨rfl, rfl⟩

theorem markFinishing_of_running {s : State} {k : PumpIx} (h : (s.player k).playing = false) (hr : (s.pump k).state = .running) :
    markFinishing k s = enterRampDown k s := by
  unfold markFinishing
  rw [if_neg (by rw [h]; decide), if_pos hr]

/-- Entry to RAMP_DOWN plays the down play and keeps the work (R83, R99, R108). -/
theorem enterRampDown_spec (k : PumpIx) (s : State) :
    ((enterRampDown k s).pump k).state = .rampDown ∧ ((enterRampDown k s).player k).start = some (s.pointers[k]).down ∧
      ((enterRampDown k s).player k).mode = some .oneShot ∧ (s.pump k).keepsWork ((enterRampDown k s).pump k) := by
  have hp : (enterRampDown k s).pump k = { (s.pump k).leaveRun with state := .rampDown } := State.pump_setPump_self k _ s
  have hq : (enterRampDown k s).player k = Player.beginPlay s.profile (s.pointers[k]).rate .oneShot (s.pointers[k]).down :=
    State.player_setPlayer_self k _ _
  rw [hp, hq]
  exact ⟨rfl, rfl, rfl, Pump.keepsWork_of_eq rfl rfl⟩

/-- No pump more counts for C after the stops. -/
theorem committed_le_of_calmer {s t : State} (h : Calmer s t) (hs : t.straps = s.straps) : t.committed ≤ s.committed := by
  have hr : t.rating = s.rating := by
    unfold State.rating
    rw [hs]
  rw [State.committed_count, State.committed_count, hr]
  refine Nat.mul_le_mul_right _ ?_
  unfold State.committedCount
  rw [← List.countP_eq_length_filter, ← List.countP_eq_length_filter]
  exact List.countP_mono_left fun k _ => (h k).2

theorem stopped_of_above {s : State} (h : (settleFigures s).entitlement < s.committedDischarge) :
    ShedTo (settleFigures s).entitlement (figured s) (stopped s) := by
  have e : stopped s = shedUntil (settleFigures s).entitlement 4 (figured s) :=
    if_pos (by rw [figured_committed]; exact h)
  rw [e]
  exact shedUntil_shedTo (State.committedCount_le _)

theorem stopped_of_within {s : State} (h : s.committedDischarge ≤ (settleFigures s).entitlement) :
    (demandStopChoice (figured s) = none ∧ stopped s = figured s) ∨
      ∃ k, demandStopChoice (figured s) = some k ∧ stopped s = markFinishing k (figured s) := by
  have e : stopped s = match demandStopChoice (figured s) with
      | some k => demandStop false k (figured s)
      | none => figured s := if_neg (by rw [figured_committed]; exact Nat.not_lt.mpr h)
  cases hk : demandStopChoice (figured s) with
  | none =>
    rw [hk] at e
    exact .inl ⟨rfl, e⟩
  | some k =>
    rw [hk] at e
    obtain ⟨⟨hr, hp⟩, _, _, _, hfin, _⟩ := demandStopChoice_spec hk
    exact .inr ⟨k, rfl, e.trans (demandStop_eq hr hp (hfin k hr))⟩

end Sys2Proof.Machine
end

section
/-! The statements about the stops of the settle point and about start wanted (R54 to R60). -/

namespace Sys2Proof.Machine

open Sys2Proof

set_option Elab.async false

/-- A pump that counted stands where it still counts, and was shed in its turn where it does not (R56, R57). -/
theorem stopped_above_spec {s : State} (h : (settleFigures s).entitlement < s.committedDischarge) (k : PumpIx) :
    ((stopped s).pumpCommitted k → s.pumpStands (stopped s) k) ∧
      (s.pumpCommitted k → ¬ (stopped s).pumpCommitted k →
        s.shedFrom (stopped s) k ∧ ∀ j, (stopped s).pumpCommitted j → s.shedsBefore k j) := by
  have hshed := stopped_of_above h
  simp only [State.pumpCommitted_iff, Bool.not_eq_true]
  exact ⟨hshed.kept k, hshed.shed k⟩

/-- Where C is within the limit, a demand stop is made exactly where R58 asks for one (R58, R84). -/
theorem stopped_within_spec {s : State} (h : s.committedDischarge ≤ (settleFigures s).entitlement) :
    (∀ k, (stopped s).pump k ≠ s.pump k →
      s.demandStops (settleFigures s).demand k ∧ ∀ j, j ≠ k → (stopped s).pump j = s.pump j) ∧
    (∀ k, s.demandStops (settleFigures s).demand k → stopped s = markFinishing k (figured s)) := by
  obtain ⟨hn, e⟩ | ⟨i, hi, e⟩ := stopped_of_within h
  · rw [e]
    refine ⟨fun k hk => absurd rfl hk, fun k hk => ?_⟩
    rw [demandStopChoice_of (s := figured s) hk] at hn
    cases hn
  · have hspec : s.demandStops (settleFigures s).demand i := demandStopChoice_spec hi
    have hother {j : PumpIx} (hj : j ≠ i) : (stopped s).pump j = s.pump j := by
      have hd := demandStop_eq (s := figured s) hspec.1.1 hspec.1.2 (hspec.2.2.2.2.1 i hspec.1.1)
      rw [e, ← hd]
      exact (demandStop_pump_of_ne hj false (figured s)).1
    refine ⟨fun k hk => ?_, fun k hk => ?_⟩
    · have hki : k = i := by
        by_contra hne
        exact hk (hother hne)
      rw [hki]
      exact ⟨hspec, fun j hj => hother hj⟩
    · have hki := demandStopChoice_of (s := figured s) hk
      rw [hi] at hki
      obtain rfl := Option.some.inj hki
      exact e

/-- A pump that counts for nothing stands. -/
theorem stopped_of_not_committed {s : State} {k : PumpIx} (hk : ¬ s.pumpCommitted k) : (stopped s).pump k = s.pump k := by
  have hk' : (s.pump k).state.committed = false := by rwa [State.pumpCommitted_iff, Bool.not_eq_true] at hk
  by_cases h : (settleFigures s).entitlement < s.committedDischarge
  · exact ((stopped_of_above h).stands k hk').1
  · by_contra hne
    obtain ⟨hd, _⟩ := (stopped_within_spec (Nat.le_of_not_lt h)).1 k hne
    rw [hd.1.1] at hk'
    cases hk'

theorem stopped_committed_le (s : State) : (stopped s).committed ≤ (settleFigures s).entitlement := by
  by_cases h : (settleFigures s).entitlement < s.committedDischarge
  · exact (stopped_of_above h).within
  · have hle := committed_le_of_calmer (Calmer.settleStops (figured s)) (stopped_frame s).1
    rw [figured_committed] at hle
    exact hle.trans (Nat.le_of_not_lt h)

/-- Settles O14: the sheds go by the choice of R57 until C is within the limit; where C is within it, the demand stop of R58 is the
one change. -/
theorem settlePointShedsUntilWithinTheLimit : Obligations.SettlePointShedsUntilWithinTheLimit := by
  intro s hc ht
  refine ⟨settled s, exec_settlePoint hc ht, ?_⟩
  have hframe := settled_frame s
  have hC (k : PumpIx) : (settled s).pumpCommitted k ↔ (stopped s).pumpCommitted k := by
    unfold State.pumpCommitted
    rw [(settled_pump s k).1]
  have he : (settled s).alloc.entitlement = (settleFigures s).entitlement := by rw [settled_alloc]
  have hd : (settled s).alloc.demand = (settleFigures s).demand := by rw [settled_alloc]
  have hshed : (settled s).alloc.shedSinceSettle = decide ((settleFigures s).entitlement < s.committedDischarge) := by
    rw [settled_alloc]
  dsimp only
  rw [he, hd, settled_committed]
  simp only [hC, fun k => (settled_pump s k).1, fun k => (settled_pump s k).2]
  refine ⟨hframe, stopped_committed_le s, hshed, fun h => ?_, fun h => ?_, fun k => stopped_of_not_committed, fun h k hk => ?_⟩
  · have hlast := (stopped_of_above h).last (by rw [figured_committed]; exact h)
    exact hlast
  · obtain ⟨hchanged, hstop⟩ := stopped_within_spec h
    refine ⟨hchanged, fun k hk hp => ?_, fun k hk hp => ?_⟩
    · rw [hstop k hk]
      exact markFinishing_of_playing (s := figured s) hp
    · rw [hstop k hk, markFinishing_of_running (s := figured s) hp hk.1.1]
      exact enterRampDown_spec k (figured s)
  · obtain ⟨hkept, hgone⟩ := stopped_above_spec h k
    refine ⟨hkept, fun hn => ?_⟩
    obtain ⟨⟨hstop, hwork⟩, hbefore⟩ := hgone hk hn
    exact ⟨hstop, hwork, fun j _ hj => hbefore j hj⟩

/-! ### Start wanted -/

/-- The conditions of R60 that no pump of its own has to meet. -/
def State.startAllowed (s : State) (shed : Bool) : Prop :=
  s.timer.mode = .member ∧ s.table.accepted.getLsbD 1 = false ∧ s.table.accepted.getLsbD 2 = false ∧ shed = false ∧
    (∀ k, (s.pump k).state ≠ .priming ∧ (s.pump k).state ≠ .rampUp) ∧
    s.committed + (s.straps.rating.val + 1) ≤ s.alloc.target

theorem startWantedNow_of_allowed {s : State} {shed : Bool} (h : s.startAllowed shed) :
    startWantedNow shed s = startChoice s (pumpList.filter (fun k => decide ((s.pump k).state = .idle) && !s.sumpLow k)) := by
  obtain ⟨hm, h₁, h₂, hs, hp, hc⟩ := h
  have hany : pumpList.any (fun k => (s.pump k).state.starting) = false := by
    rw [List.any_eq_false]
    intro k _ hk
    rcases (PumpState.starting_iff _).mp hk with e | e
    · exact (hp k).1 e
    · exact (hp k).2 e
  have hc' : s.committed + s.rating ≤ s.alloc.target := hc
  refine if_pos ?_
  unfold districtStop startHold
  rw [hm, h₁, h₂, hs, hany, decide_eq_true hc']
  rfl

theorem startWantedNow_of_not {s : State} {shed : Bool} (h : ¬ s.startAllowed shed) : startWantedNow shed s = none := by
  refine if_neg fun hb => h ?_
  simp only [Bool.and_eq_true, Bool.not_eq_true', decide_eq_true_eq] at hb
  obtain ⟨⟨⟨⟨⟨hm, h₁⟩, h₂⟩, hs⟩, hany⟩, hc⟩ := hb
  refine ⟨hm, h₁, h₂, hs, fun k => ?_, hc⟩
  rw [List.any_eq_false] at hany
  have := hany k (mem_pumpList k)
  rw [PumpState.starting_iff, not_or] at this
  exact this

theorem State.sumpIsLow_iff' (s : State) (k : PumpIx) : s.sumpLow k = false ↔ ¬ s.sumpIsLow k := by
  rw [State.sumpIsLow_iff, Bool.not_eq_true]

/-- Settles O15: where R60 allows a start, the candidate is the least worked of the IDLE pumps over a sump that is not LOW. -/
theorem startWantedNamesTheLeastWorkedIdlePump : Obligations.StartWantedNamesTheLeastWorkedIdlePump := by
  intro s hc ht
  refine ⟨settled s, exec_settlePoint hc ht, ?_⟩
  have hsump (k : PumpIx) : (settled s).sumpIsLow k ↔ (stopped s).sumpIsLow k := by
    rw [State.sumpIsLow_iff, State.sumpIsLow_iff, settled_eq, follow_sumpLow]
    rfl
  obtain ⟨hstraps, htable, _, hmode, halloc⟩ := stopped_frame s
  have hshed : (settled s).alloc.shedSinceSettle = decide ((settleFigures s).entitlement < s.committedDischarge) := by
    rw [settled_alloc]
  have htarget : (settled s).alloc.target = (settleFigures s).target := by rw [settled_alloc]
  have hwant : (settled s).alloc.startWanted =
      startWantedNow (decide ((settleFigures s).entitlement < s.committedDischarge)) (stopped s) := by rw [settled_alloc]
  dsimp only
  rw [hshed, htarget, hwant, settled_committed]
  simp only [hsump, fun k => (settled_pump s k).1]
  generalize hb : decide ((settleFigures s).entitlement < s.committedDischarge) = shed
  have hallowed : (stopped s).startAllowed shed ↔
      s.timer.mode = .member ∧ s.table.accepted.getLsbD 1 = false ∧ s.table.accepted.getLsbD 2 = false ∧ shed = false ∧
        (∀ k, ((stopped s).pump k).state ≠ .priming ∧ ((stopped s).pump k).state ≠ .rampUp) ∧
        (stopped s).committed + (s.straps.rating.val + 1) ≤ (settleFigures s).target := by
    unfold State.startAllowed
    rw [hmode, htable, hstraps, halloc]
  rw [← hallowed]
  have hmem (k : PumpIx) :
      k ∈ pumpList.filter (fun k => decide (((stopped s).pump k).state = .idle) && !(stopped s).sumpLow k) ↔
        ((stopped s).pump k).state = .idle ∧ ¬ (stopped s).sumpIsLow k := by
    rw [List.mem_filter, ← State.sumpIsLow_iff']
    simp [mem_pumpList]
  obtain ⟨hsome, hnone⟩ := startChoice_least (stopped s)
    (pumpList.filter (fun k => decide (((stopped s).pump k).state = .idle) && !(stopped s).sumpLow k))
    (pumpList_sorted.filter _)
  refine ⟨fun k hk => ?_, fun hk => ?_⟩
  · by_cases ha : (stopped s).startAllowed shed
    · rw [startWantedNow_of_allowed ha] at hk
      obtain ⟨hin, hleast⟩ := hsome k hk
      exact ⟨ha, (hmem k).mp hin, fun j hj hne => hleast j ((hmem j).mpr hj) hne⟩
    · rw [startWantedNow_of_not ha] at hk
      cases hk
  · rintro ⟨ha, k, hcand⟩
    rw [startWantedNow_of_allowed ha] at hk
    have := (hmem k).mpr hcand
    rw [hnone hk] at this
    cases this

end Sys2Proof.Machine
end

section
/-! The start window (R64 to R78): its opening, its bits, its win and its end. -/

namespace Sys2Proof.Machine

open Sys2Proof

set_option Elab.async false

/-- An event of a running part does its work on the state with its pins, and what follows comes with it. -/
theorem exec_event {i : Instr} {f : State → State} (hi : eventWork i = some f) {s : State} (hc : s.cond = .running) :
    exec i s = .next (follow (f (eventPins i s))) := by
  obtain ⟨_, e⟩ := eventPins_changes i s
  have hc' : (eventPins i s).cond = .running := by rw [e]; exact hc
  rw [exec_of_eventWork hi, whenRunning_of_running hc']

/-! ### The opening -/

/-- The threshold of a window, in the words of R66. -/
theorem windowThreshold_eq (flood : Bool) (urgency : Nat) (last : LastResult) :
    windowThreshold flood urgency last =
      if flood then 1
      else if 5 ≤ urgency then (if last = .win then 3 else 2) else (if last = .win then 5 else 4) := by
  unfold windowThreshold
  split
  · rfl
  · split <;> split <;> rfl

/-- The candidate is the start wanted, where the station may contend with it (R67). -/
theorem contendsWith_eq_some (s : State) (n : Nat) (k : PumpIx) :
    s.contendsWith n = some k ↔ s.alloc.startWanted = some k ∧ s.startIsValid k ∧ n ≤ s.arb.freeWindows := by
  unfold State.contendsWith
  cases hw : s.alloc.startWanted with
  | none => simp
  | some j =>
    dsimp only
    by_cases hv : s.startIsValid j
    · have hm : s.timer.mode = .member := by
        obtain ⟨_, _, _, _, hm, _⟩ := hv
        exact hm
      have hv' := (State.startIsValid_iff s j).mp hv
      by_cases hn : n ≤ s.arb.freeWindows
      · rw [hm, hv', decide_eq_true hn]
        refine ⟨fun h => ?_, fun h => h.1⟩
        obtain rfl := Option.some.inj h
        exact ⟨rfl, hv, hn⟩
      · rw [decide_eq_false hn]
        simp [hn]
    · have hv' : s.startValid j = false := by rwa [State.startIsValid_iff, Bool.not_eq_true] at hv
      rw [hv', Bool.and_false]
      refine ⟨fun h => (by cases h), fun h => ?_⟩
      obtain rfl := Option.some.inj h.1
      exact absurd h.2.1 hv

/-- The threshold that an opening fixes. -/
def State.thresholdNow (s : State) : Nat := windowThreshold s.gauge.flood s.urgency s.arb.lastResult

/-- The window that an opening opens (R64, R65, R68). -/
def State.windowNow (s : State) : Window :=
  { elapsed := 0, notFree := false, bitsRead := 0, word := arbitrationWord s.urgency s.own, cables := [s.line.active]
    holding := false }

theorem openWindow_of_not {s : State} (h : s.timer.windowTaken = false) :
    openWindow s =
      { holdDecoders s with
        timer := { s.timer with windowTaken := true }
        line := { (holdDecoders s).line with windowHold := true }
        arb := { s.arb with threshold := s.thresholdNow, window := some s.windowNow
                            pendingStart := s.contendsWith s.thresholdNow
                            part := if (s.contendsWith s.thresholdNow).isSome then .contending else .out } } :=
  if_neg (by rw [h]; decide)

theorem openWindow_of_taken {s : State} (h : s.timer.windowTaken = true) : openWindow s = s := if_pos h

/-- A candidate is valid as the window opens, so that nothing follows in the arbiter. -/
theorem follow_openWindow_arb {s : State} (h : s.timer.windowTaken = false) : (follow (openWindow s)).arb = (openWindow s).arb := by
  refine follow_arb_of ?_
  rw [openWindow_of_not h]
  cases hk : s.contendsWith s.thresholdNow with
  | none => exact .inl nofun
  | some k =>
    obtain ⟨_, hv, _⟩ := (contendsWith_eq_some s _ k).mp hk
    exact .inr ((State.startIsValid_iff s k).mp hv)

theorem holdDecoders_cable (s : State) (c : Cable) : (holdDecoders s).line.cable c = (s.line.cable c).hold := by
  cases c <;> rfl

/-- Settles O16: the opening forms the threshold and the word, and the station contends exactly with a valid start wanted whose
threshold is met. -/
theorem windowOpeningContendsByThreshold : Obligations.WindowOpeningContendsByThreshold := by
  refine ⟨fun s hc h => ?_, fun s hc h => ⟨follow (openWindow s), exec_event rfl hc, ?_⟩⟩
  · have hx := exec_event (i := .windowOpening) rfl hc
    rw [openWindow_of_taken (s := eventPins .windowOpening s) h] at hx
    exact hx
  · have harb := follow_openWindow_arb h
    have hword : (arbitrationWord s.urgency s.own).toNat = 16 * (7 - s.urgency) + s.own.val := by
      unfold arbitrationWord
      rw [BitVec.toNat_ofNat]
      exact Nat.mod_eq_of_lt (by have := s.own.isLt; omega)
    have hcables := holdDecoders_cable s
    intro urgency threshold
    have hurgency : urgency = s.urgency := rfl
    have hthreshold : threshold = s.thresholdNow := (windowThreshold_eq s.gauge.flood s.urgency s.arb.lastResult).symm
    rw [hurgency, hthreshold, harb, follow_timer, follow_line, openWindow_of_not h]
    refine ⟨rfl, ⟨_, rfl, rfl, rfl, rfl, rfl, hword, rfl⟩, fun k hw hv hn => ?_, fun hn => ?_, rfl, rfl, rfl, rfl, rfl,
      fun c => hcables c, rfl, rfl, rfl, rfl, rfl⟩
    · have hk := (contendsWith_eq_some s s.thresholdNow k).mpr ⟨hw, hv, hn⟩
      dsimp only
      rw [hk]
      exact ⟨rfl, rfl⟩
    · have hk : s.contendsWith s.thresholdNow = none := by
        refine Option.eq_none_iff_forall_ne_some.mpr fun k hk => hn ?_
        exact ⟨k, (contendsWith_eq_some s _ k).mp hk⟩
      dsimp only
      rw [hk]
      exact ⟨rfl, rfl⟩

/-! ### The bits -/

/-- A bit of the word in the order of sending, as a quotient (R68, R178). -/
theorem wordBit_eq (w : BitVec 7) (k : Nat) : wordBit w k = decide (w.toNat / 2 ^ (6 - k) % 2 = 1) := by
  unfold wordBit
  rw [BitVec.getLsbD, Nat.testBit_eq_decide_div_mod_eq]

/-- The reading of a cell in a window held (R68, R75). -/
theorem readArbitrationBit_of_window {s : State} {w : Window} (hw : s.arb.window = some w) (hh : s.line.windowHold = true)
    (hb : w.bitsRead < 7) (levels : DrivenLevels) :
    readArbitrationBit levels s =
      { s with arb :=
        let a := { s.arb with window := some { w with bitsRead := w.bitsRead + 1
                                                      notFree := w.notFree || levels.on s.line.active } }
        if s.arb.part = .contending then
          a.readBit (wordBit w.word w.bitsRead) (levels.on (latchedCable w.cables w.bitsRead s.line.active))
        else a } := by
  unfold readArbitrationBit
  rw [hw]
  dsimp only
  rw [if_pos (by rw [hh, decide_eq_true hb]; rfl)]

/-- Settles O17: the station goes on where it read what it sent, and withdraws otherwise, with LOSS where another drove. -/
theorem arbitrationReadingDecidesTheContention : Obligations.ArbitrationReadingDecidesTheContention := by
  intro levels s w hc hw hh hb
  refine ⟨follow (readArbitrationBit levels s), exec_event rfl hc, ?_⟩
  intro level driven sent
  have hlevel : level = levels.on := by
    funext c
    cases c <;> rfl
  have hdriven : driven = levels.on (latchedCable w.cables w.bitsRead s.line.active) := congrFun hlevel _
  have hsent : sent = wordBit w.word w.bitsRead := (wordBit_eq _ _).symm
  have hx := readArbitrationBit_of_window hw hh hb levels
  rw [← hdriven, ← hsent] at hx
  clear_value driven sent
  rw [hlevel]
  have hframe : follow (readArbitrationBit levels s) = follow { s with arb := (follow (readArbitrationBit levels s)).arb } := by
    rw [hx]
    exact (follow_with_arb _).symm
  by_cases hp : s.arb.part = .contending
  · have hx' := hx
    rw [if_pos hp] at hx'
    refine ⟨?_, fun _ h₁ h₂ => ?_, fun _ h₁ h₂ => ?_, fun k _ h hk hv => ?_, fun h => absurd hp h, hframe⟩
    · rw [follow_window, hx']
      cases sent <;> cases driven <;> rfl
    · rw [h₁, h₂] at hx'
      rw [hx', follow_arb_of (.inl (by simp [Arbiter.readBit]))]
      exact ⟨rfl, rfl, rfl⟩
    · rw [h₁, h₂] at hx'
      rw [hx', follow_arb_of (.inl (by simp [Arbiter.readBit]))]
      exact ⟨rfl, rfl, rfl⟩
    · have hgoes (a : Arbiter) : a.readBit sent driven = a := by
        rw [h]
        cases driven <;> rfl
      have hvalid : ({ s with arb := { s.arb with window := some { w with bitsRead := w.bitsRead + 1
                                                                          notFree := w.notFree || levels.on s.line.active } } } :
          State).pendingValid = true := (State.pendingValid_iff _).mpr ⟨k, hk, hv⟩
      dsimp only at hx'
      rw [hgoes] at hx'
      rw [hx', follow_arb_of (.inr hvalid)]
      exact ⟨hp, hk, rfl⟩
  · rw [if_neg hp] at hx
    have harb : (follow (readArbitrationBit levels s)).arb = (readArbitrationBit levels s).arb := by
      rw [hx]
      exact follow_arb_of (.inl hp)
    refine ⟨?_, fun h => absurd h hp, fun h => absurd h hp, fun k h => absurd h hp, fun _ => ?_, hframe⟩
    · rw [harb, hx]
    · rw [harb, hx]
      exact ⟨rfl, rfl, rfl⟩

/-! ### The win and the end -/

/-- Settles O18: each of the three events has one effect on the window under way. -/
theorem windowIsWonAtTheLastBitAndJudgedAtItsEnd : Obligations.WindowIsWonAtTheLastBitAndJudgedAtItsEnd := by
  refine ⟨fun s w hc hw hh => ⟨?_, fun hp => ?_, fun hp => ?_⟩, fun s w hc hw => ?_⟩
  · have hx : seeDrivenLevel s = { s with arb := { s.arb with window := some { w with notFree := true } } } := by
      unfold seeDrivenLevel markNotFree
      rw [if_pos hh, hw]
      rfl
    exact (exec_event (i := .windowDrivenLevel) rfl hc).trans (by rw [← hx]; rfl)
  · have hx : endLastBit s =
        { s with arb := { s.arb with part := .won, lastResult := .win, window := some { w with holding := true } }
                 line := { s.line with windowHold := false } } := by
      unfold endLastBit
      dsimp only
      rw [if_pos hh, if_pos hp, hw]
      rfl
    exact (exec_event (i := .lastBitEnd) rfl hc).trans (by rw [← hx]; rfl)
  · have hx : endLastBit s = { s with line := { s.line with windowHold := false } } := by
      unfold endLastBit
      dsimp only
      rw [if_pos hh, if_neg hp]
    exact (exec_event (i := .lastBitEnd) rfl hc).trans (by rw [← hx]; rfl)
  · have hx : endWindow s =
        { s with arb := { s.arb with freeWindows := if w.notFree then 0 else min 255 (s.arb.freeWindows + 1), part := .out
                                     pendingStart := none, window := none, confirmClean := false }
                 alloc := { s.alloc with startWanted := none }
                 line := { s.line with windowHold := false } } := by
      unfold endWindow
      rw [hw]
      rfl
    exact (exec_event (i := .windowEnd) rfl hc).trans (by rw [← hx]; rfl)

end Sys2Proof.Machine
end

section
/-! Characters on the line and the checks of the frames (R140, R141, R143, R176, R177). -/

namespace Sys2Proof.Machine

open Sys2Proof

set_option Elab.async false

/-! ### Characters -/

/-- What the cells of a character sent give a decoder, for each of the 256 values. -/
theorem judgeReadings_readingsOf : ∀ c : Byte, judgeReadings (readingsOf c) = .char c false false := by
  decide +kernel

theorem readingsOf_cells : ∀ c : Byte, (readingsOf c).getLsbD 0 = false ∧ (readingsOf c).getLsbD 10 = true ∧
    (∀ i : Fin 8, (readingsOf c).getLsbD (i + 1) = c.getLsbD i) ∧
    ((List.range 9).countP (fun i => (readingsOf c).getLsbD (i + 1))) % 2 = 0 := by
  decide +kernel

/-! ### The registers -/

/-- One shift of the CRC-16 register as a number. -/
theorem crc16Shift_toNat (r : Word16) :
    (crc16Shift r).toNat = if 32768 ≤ r.toNat then (2 * r.toNat - 65536) ^^^ 0x1021 else 2 * r.toNat := by
  have hr : r.toNat < 65536 := r.isLt
  have hshift : (r <<< 1).toNat = 2 * r.toNat % 65536 := by
    rw [BitVec.toNat_shiftLeft, Nat.shiftLeft_eq, Nat.mul_comm]
  unfold crc16Shift
  by_cases h : 32768 ≤ r.toNat
  · rw [if_pos h, if_pos (by rw [BitVec.msb_eq_decide]; simpa using h), BitVec.toNat_xor, hshift,
      (by omega : 2 * r.toNat % 65536 = 2 * r.toNat - 65536)]
    rfl
  · rw [if_neg h, if_neg (by rw [BitVec.msb_eq_decide]; simpa using h), hshift]
    omega

/-- One shift of the CRC-8 register as a number. -/
theorem crc8Shift_toNat (r : Byte) :
    (crc8Shift r).toNat = if 128 ≤ r.toNat then (2 * r.toNat - 256) ^^^ 0x07 else 2 * r.toNat := by
  have hr : r.toNat < 256 := r.isLt
  have hshift : (r <<< 1).toNat = 2 * r.toNat % 256 := by
    rw [BitVec.toNat_shiftLeft, Nat.shiftLeft_eq, Nat.mul_comm]
  unfold crc8Shift
  by_cases h : 128 ≤ r.toNat
  · rw [if_pos h, if_pos (by rw [BitVec.msb_eq_decide]; simpa using h), BitVec.toNat_xor, hshift,
      (by omega : 2 * r.toNat % 256 = 2 * r.toNat - 256)]
    rfl
  · rw [if_neg h, if_neg (by rw [BitVec.msb_eq_decide]; simpa using h), hshift]
    omega

/-- A character enters the top eight bits of the CRC-16 register. -/
theorem crc16_enter (r : Word16) (c : Byte) : (r ^^^ (c.zeroExtend 16 <<< 8)).toNat = r.toNat ^^^ (256 * c.toNat) := by
  have hc : c.toNat < 256 := c.isLt
  rw [BitVec.toNat_xor, BitVec.toNat_shiftLeft, BitVec.toNat_setWidth, Nat.shiftLeft_eq,
    (by omega : c.toNat % 2 ^ 16 * 2 ^ 8 % 2 ^ 16 = 256 * c.toNat)]

theorem crc16_concat (cs : List Byte) (c : Byte) : crc16 (cs ++ [c]) = crc16Char (crc16 cs) c := by
  simp [crc16]

theorem crc8_concat (cs : List Byte) (c : Byte) : crc8 (cs ++ [c]) = crc8Char (crc8 cs) c := by
  simp [crc8]

/-- A character is added and the register shifted eight times. -/
theorem crc16Char_eq (r : Word16) (c : Byte) :
    crc16Char r c = crc16Shift (crc16Shift (crc16Shift (crc16Shift (crc16Shift (crc16Shift (crc16Shift (crc16Shift
      (r ^^^ (c.zeroExtend 16 <<< 8))))))))) := rfl

theorem crc8Char_eq (r c : Byte) :
    crc8Char r c =
      crc8Shift (crc8Shift (crc8Shift (crc8Shift (crc8Shift (crc8Shift (crc8Shift (crc8Shift (r ^^^ c)))))))) := rfl

/-! ### The checks of complete frames -/

theorem charsWord16_toNat (hi lo : Byte) : (charsWord16 hi lo).toNat = 256 * hi.toNat + lo.toNat := by
  have hlo : lo.toNat < 2 ^ 8 := lo.isLt
  unfold charsWord16
  rw [BitVec.toNat_append, ← Nat.shiftLeft_add_eq_or_of_lt hlo, Nat.shiftLeft_eq, Nat.mul_comm]

theorem frameCheckOk_announcement {body : List Byte} (h : body.length = 11) (hi lo : Byte) :
    frameCheckOk .announcement (body ++ [hi, lo]) = true ↔ crc16 body = charsWord16 hi lo := by
  unfold frameCheckOk
  rw [decide_eq_true_eq, List.take_left' h]
  simp [List.getD_eq_getElem?_getD, h]

theorem frameCheckOk_confirmation {body : List Byte} (h : body.length = 3) (c : Byte) :
    frameCheckOk .confirmation (body ++ [c]) = true ↔ crc8 body = c := by
  unfold frameCheckOk
  rw [decide_eq_true_eq, List.take_left' h]
  simp [List.getD_eq_getElem?_getD, h]

/-- Settles O23: the cells of a character by its values, the registers shift by shift, and the judgement of a frame by the places of
its check characters. -/
theorem characterCellsAndFrameChecksFollowTheirRules : Obligations.CharacterCellsAndFrameChecksFollowTheirRules := by
  refine ⟨fun c => ?_, ⟨rfl, rfl, fun cs c => ⟨?_, ?_⟩⟩, fun body hi lo h => ?_, fun body check h => ?_⟩
  · exact ⟨judgeReadings_readingsOf c, readingsOf_cells c⟩
  · rw [crc16_concat, crc16Char_eq]
    simp only [crc16Shift_toNat, crc16_enter]
  · rw [crc8_concat, crc8Char_eq]
    simp only [crc8Shift_toNat, BitVec.toNat_xor]
  · rw [frameCheckOk_announcement h, ← BitVec.toNat_inj, charsWord16_toNat]
  · rw [frameCheckOk_confirmation h, ← BitVec.toNat_inj]

end Sys2Proof.Machine
end

section
/-! The frames the part sends, their read-back and their end (R40, R71, R144, R150, R151, R154, R176, R177). -/

namespace Sys2Proof.Machine

open Sys2Proof

set_option Elab.async false

/-! ### The begin of a frame -/

theorem beginTransmission_eq (kind : FrameKind) (cs : List Byte) (s : State) :
    beginTransmission kind cs s =
      { s with line := { s.line with
          a := { s.line.a with decoder := .waitRelease, assembly := none }
          b := { s.line.b with decoder := .waitRelease, assembly := none }
          handed := none
          tx := some { kind := kind, chars := cs, returned := 0, cables := [s.line.active], standby := [], elapsed := 0 } } } :=
  rfl

/-- The check of a confirmation composed is correct (R177). -/
theorem confirmationChars_eq (k : Station) (p : PumpIx) (rating : Nat) :
    ∃ check, confirmationChars k p rating = [0xC3, BitVec.ofNat 8 (k.val + 16 * p.val), BitVec.ofNat 8 rating, check] ∧
      frameCheckOk .confirmation [0xC3, BitVec.ofNat 8 (k.val + 16 * p.val), BitVec.ofNat 8 rating, check] = true :=
  ⟨crc8 [0xC3, BitVec.ofNat 8 (k.val + 16 * p.val), BitVec.ofNat 8 rating], rfl,
    (frameCheckOk_confirmation (body := [0xC3, BitVec.ofNat 8 (k.val + 16 * p.val), BitVec.ofNat 8 rating]) rfl _).mpr rfl⟩

/-- Settles O19: a winner that is not SILENT begins its confirmation on both cables; any other station ends the hold of its
realignment. -/
theorem confirmationBeginSendsTheWinnersFrame : Obligations.ConfirmationBeginSendsTheWinnersFrame := by
  refine ⟨fun inp s k hc hw hk hm ht hf => ?_, fun inp s hc => ⟨fun ht hf h => ?_, fun h => ?_⟩⟩
  · obtain ⟨check, hchars, hok⟩ := confirmationChars_eq s.own k s.rating
    have hx : beginConfirmation { s with inputs := inp } =
        beginTransmission .confirmation (confirmationChars s.own k s.rating) { s with inputs := inp } := by
      unfold beginConfirmation
      simp only [ht, hf, hw, hk, if_neg hm]
      rfl
    have he := exec_event (i := .confirmationBegin inp) rfl hc
    change exec _ s = .next (follow (beginConfirmation { s with inputs := inp })) at he
    rw [hx, hchars] at he
    refine ⟨_, check, he, ?_, hok, fun c => ?_, ?_, ?_, ?_, ?_, ?_⟩
    · rw [follow_line]
      rfl
    · rw [follow_line]
      cases c <;> rfl
    · rw [follow_line]
      rfl
    · rw [follow_line]
      rfl
    · rw [follow_line]
      rfl
    · refine follow_arb_of (.inl ?_)
      rw [beginTransmission_eq]
      dsimp only
      rw [hw]
      decide
    · rw [follow_line]
      rfl
  · have hx : beginConfirmation { s with inputs := inp } = releaseRealignment { s with inputs := inp } := by
      unfold beginConfirmation
      simp only [ht, hf]
      cases hp : s.arb.part <;> cases hk : s.arb.pendingStart <;> simp_all
    exact (exec_event (i := .confirmationBegin inp) rfl hc).trans (by rw [← hx]; rfl)
  · have hx : beginConfirmation { s with inputs := inp } = { s with inputs := inp } := by
      unfold beginConfirmation
      exact if_pos (by rw [Bool.or_eq_true]; exact h)
    exact (exec_event (i := .confirmationBegin inp) rfl hc).trans (by rw [← hx]; rfl)

/-! ### The own announcement -/

theorem charsWord16_word16Chars (w : Word16) : charsWord16 (w.extractLsb' 8 8) (w.extractLsb' 0 8) = w := by
  refine BitVec.eq_of_toNat_eq ?_
  have hw : w.toNat < 65536 := w.isLt
  rw [charsWord16_toNat, BitVec.extractLsb'_toNat, BitVec.extractLsb'_toNat, Nat.shiftRight_eq_div_pow, Nat.shiftRight_eq_div_pow]
  omega

/-- An announcement composed ends with the correct check of its first eleven characters (R176). -/
theorem announcementChars_eq (k : Station) (count : Word16) (f : EntryFields) :
    ∃ hi lo, announcementChars k count f =
        [0x5A, BitVec.ofNat 8 (k.val + 16 * f.mode.code), count.extractLsb' 8 8, count.extractLsb' 0 8,
          classChar f.polderClass f.flood, BitVec.ofNat 8 f.demand, BitVec.ofNat 8 f.committed, BitVec.ofNat 8 f.island,
          offerChar f.offer, f.flags.zeroExtend 8, f.summary] ++ [hi, lo] ∧
      frameCheckOk .announcement (announcementChars k count f) = true :=
  ⟨_, _, rfl, (frameCheckOk_announcement rfl _ _).mpr (charsWord16_word16Chars _).symm⟩

/-- Settles O21: the announcement is composed from the own entry and its check formed of its body; the own summary and the own offer
are read off the pumps and the curve. -/
theorem ownSlotComposesAndBeginsTheAnnouncement : Obligations.OwnSlotComposesAndBeginsTheAnnouncement := by
  refine ⟨fun inp s hc => ⟨_, exec_event (i := .ownSlotStart inp) rfl hc, fun hm ht => ?_, fun h => ?_⟩, fun cs s hc hh => ?_,
    fun s => ?_⟩
  · have ha : s.announces = true := (State.announces_iff s).mpr hm
    obtain ⟨hi, lo, hchars, hok⟩ := announcementChars_eq s.own s.timer.count (State.ownFields { s with inputs := inp })
    have hmode : (match s.timer.mode with | .joining => 0 | .member => 1 | _ => 2) = s.timer.mode.code := by
      rcases hm with ⟨h, _⟩ | h | h <;> rw [h] <;> rfl
    have hx : composeAnnouncement { s with inputs := inp } =
        { s with inputs := inp, timer := { s.timer with announceTaken := true }
                 line := { s.line with
                   handed := some (announcementChars s.own s.timer.count (State.ownFields { s with inputs := inp })) } } := by
      refine if_pos ?_
      change (s.announces && !s.timer.announceTaken) = true
      rw [ha, ht]
      rfl
    have hbody : [0x5A, BitVec.ofNat 8 (s.own.val + 16 * (match s.timer.mode with | .joining => 0 | .member => 1 | _ => 2)),
             s.timer.count.extractLsb' 8 8, s.timer.count.extractLsb' 0 8,
             BitVec.ofNat 8 ((match s.gauge.polder.heldClass with | some c => c.val | none => 15) +
               (if s.gauge.flood then 128 else 0)),
             BitVec.ofNat 8 s.alloc.demand, BitVec.ofNat 8 s.committedDischarge, BitVec.ofNat 8 s.straps.island.val,
             BitVec.ofNat 8 (s.ownOffer.getD 63), inp.flags.zeroExtend 8, s.ownSummary] ++ [hi, lo] =
        announcementChars s.own s.timer.count (State.ownFields { s with inputs := inp }) := by
      rw [hchars, hmode, ← State.committed_eq]
      rfl
    refine ⟨hi, lo, ?_⟩
    intro body
    have hb : body ++ [hi, lo] = announcementChars s.own s.timer.count (State.ownFields { s with inputs := inp }) := hbody
    rw [hb]
    exact ⟨congrArg follow hx, hok⟩
  · have hx : composeAnnouncement { s with inputs := inp } = { s with inputs := inp } := by
      refine if_neg ?_
      change ¬ (s.announces && !s.timer.announceTaken) = true
      unfold State.announces
      rcases h with ⟨hm, ha⟩ | hm | ht
      · simp [hm, ha]
      · simp [hm]
      · simp [ht]
    exact congrArg follow hx
  · have hx : beginAnnouncement s = beginTransmission .announcement cs s := by
      unfold beginAnnouncement
      rw [hh]
    exact (exec_event (i := .announcementTransmitBegin) rfl hc).trans (by rw [← beginTransmission_eq, ← hx]; rfl)
  · refine ⟨?_, fun h => ?_, fun c hk => ⟨fun h => ?_, fun h => ?_, fun h => ?_, fun h => ?_⟩⟩
    · have hcode (k : PumpIx) : (s.pump k).state.summaryCode = match (s.pump k).state with
          | .absent | .held => 0
          | .idle | .resting => 1
          | .priming | .rampUp | .running | .rampDown => 2
          | .faulted => 3 := rfl
      unfold State.ownSummary
      simp only [hcode] <;> rfl
    · unfold State.ownOffer StrapLevels.curve
      rcases h with h | h
      · simp [h]
      · rw [h]
        split <;> simp_all
    all_goals simp [State.ownOffer, StrapLevels.curve, h, hk, offerCurve]

end Sys2Proof.Machine
end

section
/-! The read-back of a frame and its failure (R38, R39, R71 to R73, R151). -/

namespace Sys2Proof.Machine

open Sys2Proof

set_option Elab.async false

/-! ### The count of the failures -/

/-- A station that is SILENT stays so. -/
theorem goSilent_of_silent {s : State} (h : s.timer.mode = .silent) : goSilent s = s := if_pos h

/-- A station goes to SILENT: what it was to send is dropped, the pending start of a won window too, and the reference is chosen
anew (R39, R40, R78). -/
theorem goSilent_of_not {s : State} (h : s.timer.mode ≠ .silent) :
    goSilent s =
      chooseReference (State.raise .modeChange
        { s with timer := { s.timer with mode := .silent }
                 arb := { s.arb with pendingStart := if s.arb.part = .won then none else s.arb.pendingStart }
                 line := { s.line with handed := none, tx := none } }) := by
  unfold goSilent
  rw [if_neg h]
  by_cases hp : s.arb.part = .won
  · simp only [hp, if_true]
    exact if_neg h
  · simp only [hp, if_false]
    exact if_neg h

theorem countReadBackFailure_of_failed {s : State} (h : s.timer.failedInRound = true) : countReadBackFailure s = s := if_pos h

theorem countReadBackFailure_of_few {s : State} (h : s.timer.failedInRound = false) (hn : s.timer.readBackCount < 2) :
    countReadBackFailure s =
      { s with timer := { s.timer with failedInRound := true, readBackCount := s.timer.readBackCount + 1 } } := by
  unfold countReadBackFailure
  rw [if_neg (by rw [h]; decide)]
  exact if_neg (by change ¬ 3 ≤ s.timer.readBackCount + 1; omega)

theorem countReadBackFailure_of_third {s : State} (h : s.timer.failedInRound = false) (hn : 2 ≤ s.timer.readBackCount) :
    countReadBackFailure s =
      goSilent { s with timer := { s.timer with failedInRound := true, readBackCount := s.timer.readBackCount + 1 } } := by
  unfold countReadBackFailure
  rw [if_neg (by rw [h]; decide)]
  exact if_pos (by change 3 ≤ s.timer.readBackCount + 1; omega)

/-- The stop of a frame and the count of its failure are those of R38 and R151. -/
theorem countReadBackFailure_failsReadBack (s : State) :
    State.failsReadBack s (countReadBackFailure { s with line := { s.line with tx := none } }) := by
  cases hf : s.timer.failedInRound with
  | true =>
    rw [countReadBackFailure_of_failed (s := { s with line := { s.line with tx := none } }) hf]
    exact ⟨rfl, rfl, fun _ => ⟨rfl, rfl, rfl⟩, fun h => absurd (hf.symm.trans h) (by decide),
      fun h => absurd (hf.symm.trans h) (by decide), rfl⟩
  | false =>
    by_cases hn : s.timer.readBackCount < 2
    · rw [countReadBackFailure_of_few (s := { s with line := { s.line with tx := none } }) hf hn]
      exact ⟨rfl, rfl, fun h => absurd (hf.symm.trans h) (by decide), fun _ _ => ⟨rfl, rfl, rfl⟩, fun _ h => absurd hn (by omega),
        rfl⟩
    · rw [countReadBackFailure_of_third (s := { s with line := { s.line with tx := none } }) hf (by dsimp only; omega)]
      by_cases hm : s.timer.mode = .silent
      · rw [goSilent_of_silent (by exact hm)]
        refine ⟨rfl, rfl, fun h => absurd (hf.symm.trans h) (by decide), fun _ h => absurd h hn,
          fun _ _ => ⟨?_, fun h => absurd hm h⟩, rfl⟩
        dsimp only
        rw [← hm]
      · rw [goSilent_of_not (by exact hm)]
        exact ⟨rfl, rfl, fun h => absurd (hf.symm.trans h) (by decide), fun _ h => absurd h hn,
          fun _ _ => ⟨rfl, fun _ => ⟨rfl, rfl, chooseReference_chosen _⟩⟩, rfl⟩

/-- The count of a failure leaves the arbiter of a station that has not won. -/
theorem countReadBackFailure_arb {s : State} (h : s.arb.part ≠ .won) : (countReadBackFailure s).arb = s.arb := by
  unfold countReadBackFailure goSilent setMode
  by_cases hf : s.timer.failedInRound = true
  · rw [if_pos hf]
  · rw [if_neg hf]
    dsimp only
    rw [if_neg h]
    split
    · split
      · rfl
      · rfl
    · rfl

/-- A start dropped is no part of the failure. -/
theorem State.failsReadBack.dropStart {s u : State} (h : State.failsReadBack s u) : State.failsReadBack s (dropStart u) := by
  obtain ⟨hline, harb, hfailed, hfew, hthird, hframe⟩ := h
  refine ⟨hline, ?_, hfailed, hfew, hthird, ?_⟩
  · change ({ u.arb with pendingStart := none } : Arbiter) = _
    rw [harb]
    rfl
  · unfold Machine.dropStart
    rw [hframe]

theorem failReadBack_announcement {t : Transmission} (h : t.kind = .announcement) (s : State) :
    failReadBack t s = countReadBackFailure { s with line := { s.line with tx := none } } := by
  unfold failReadBack
  rw [h]

theorem failReadBack_confirmation {t : Transmission} (h : t.kind = .confirmation) (s : State) :
    failReadBack t s =
      releaseRealignment (dropStart (countReadBackFailure { s with line := { s.line with tx := none } })) := by
  unfold failReadBack
  rw [h]

/-- A read-back failure of an announcement and of a confirmation, in the words of R38, R72 and R73. -/
theorem failReadBack_spec (t : Transmission) (s : State) :
    (t.kind = .announcement →
      ∃ u, follow (failReadBack t s) = follow u ∧ State.failsReadBack s u ∧ (s.arb.part ≠ .won → u.arb = s.arb)) ∧
    (t.kind = .confirmation →
      ∃ u, follow (failReadBack t s) = follow (releaseRealignment u) ∧ State.failsReadBack s u ∧ u.arb.pendingStart = none) := by
  have hcount := countReadBackFailure_failsReadBack s
  refine ⟨fun hk => ⟨_, congrArg follow (failReadBack_announcement hk s), hcount, fun hp => ?_⟩,
    fun hk => ⟨_, congrArg follow (failReadBack_confirmation hk s), hcount.dropStart, rfl⟩⟩
  exact countReadBackFailure_arb (s := { s with line := { s.line with tx := none } }) hp

/-! ### The two commands -/

theorem Cable.choose_eq {α : Type} (c : Cable) (x y : α) : c.choose x y = match c with | .a => x | .b => y := by
  cases c <;> rfl

/-- The two words for a character that comes back unchanged. -/
theorem returnsUnchanged_iff (c : Byte) (x : Returned) :
    returnsUnchanged c x = false ↔ x = .noEdge ∨ ∃ r, x = .char r ∧ judgeReadings r ≠ .char c false false := by
  cases x <;> simp [returnsUnchanged]

theorem returnsUnchanged_readingsOf (c : Byte) : returnsUnchanged c (.char (readingsOf c)) = true := by
  simp [returnsUnchanged, judgeReadings_readingsOf]

/-- The copy on the other cable is what the active one did not return. -/
theorem readBackCharacter_of_unchanged {s : State} {tx : Transmission} {c : Byte} (htx : s.line.tx = some tx)
    (hc : tx.chars[tx.returned]? = some c) (onA onB : Returned)
    (h : returnsUnchanged c ((latchedCable tx.cables tx.returned s.line.active).choose onA onB) = true) :
    readBackCharacter onA onB s =
      { s with line := { s.line with
          tx := some { tx with
            returned := tx.returned + 1
            standby := tx.standby ++ [(latchedCable tx.cables tx.returned s.line.active).choose onB onA] } } } := by
  unfold readBackCharacter
  simp only [htx, hc]
  exact if_pos h

theorem readBackCharacter_of_changed {s : State} {tx : Transmission} {c : Byte} (htx : s.line.tx = some tx)
    (hc : tx.chars[tx.returned]? = some c) (onA onB : Returned)
    (h : returnsUnchanged c ((latchedCable tx.cables tx.returned s.line.active).choose onA onB) = false) :
    readBackCharacter onA onB s = failReadBack tx s := by
  unfold readBackCharacter
  simp only [htx, hc]
  exact if_neg (by rw [h]; decide)

/-- Settles O22, by the comparison on the cable latched at the start edge and the count of a failure. -/
theorem readBackStopsTheFrameAtAMismatch : Obligations.ReadBackStopsTheFrameAtAMismatch := by
  intro onA onB inp s tx c hrun htx hc compared back copy fails
  have hback : (latchedCable tx.cables tx.returned s.line.active).choose onA onB = back := Cable.choose_eq compared onA onB
  have hcopy : (latchedCable tx.cables tx.returned s.line.active).choose onB onA = copy := Cable.choose_eq compared onB onA
  have he := exec_event (i := .characterReadBack onA onB inp) rfl hrun
  have hfails : fails ↔ returnsUnchanged c back = false := (returnsUnchanged_iff c back).symm
  have hspec := failReadBack_spec tx { s with inputs := inp }
  clear_value fails back copy
  have hlose (hf : fails) : readBackCharacter onA onB { s with inputs := inp } = failReadBack tx { s with inputs := inp } :=
    readBackCharacter_of_changed (s := { s with inputs := inp }) htx hc onA onB
      ((congrArg (returnsUnchanged c) hback).trans (hfails.mp hf))
  refine ⟨fun hb => ?_, fun hf hk => ?_, fun hf hk => ?_⟩
  · have hx := readBackCharacter_of_unchanged (s := { s with inputs := inp }) htx hc onA onB
      ((congrArg (returnsUnchanged c) (hback.trans hb)).trans (returnsUnchanged_readingsOf c))
    rw [← hcopy]
    exact he.trans (congrArg (fun t => Host.Outcome.next (follow t)) hx)
  · obtain ⟨u, hu, hkeep, harb⟩ := hspec.1 hk
    refine ⟨u, ?_, hkeep, harb⟩
    rw [← hu, ← hlose hf]
    exact he
  · obtain ⟨u, hu, hkeep, hnone⟩ := hspec.2 hk
    refine ⟨u, ?_, hkeep, hnone⟩
    rw [← hu, ← hlose hf]
    exact he

theorem foreignEdge_of_some {s : State} {tx : Transmission} (h : s.line.tx = some tx) : foreignEdge s = failReadBack tx s := by
  unfold foreignEdge
  rw [h]

/-- With no realignment held, the end of the hold changes the window's mark alone. -/
theorem releaseRealignment_of_none {s : State} (h : s.timer.held = none) :
    releaseRealignment s =
      { s with arb := { s.arb with window := s.arb.window.map (fun w => { w with holding := false }) } } := by
  unfold releaseRealignment
  simp only [h]

/-- A read-back failure holds no realignment and drops none. -/
theorem State.failsReadBack.held {s u : State} (h : State.failsReadBack s u) : u.timer.held = s.timer.held := by
  obtain ⟨_, _, hfailed, hfew, hthird, _⟩ := h
  cases hf : s.timer.failedInRound with
  | true => rw [(hfailed hf).1]
  | false =>
    by_cases hn : s.timer.readBackCount < 2
    · rw [(hfew hf hn).1]
    · rw [(hthird hf (by omega)).1]

/-- What the failure counts, and the mode that the third in a row leads to. -/
theorem State.failsReadBack.counts {s u : State} (h : State.failsReadBack s u) :
    u.timer.failedInRound = true ∧
      (s.timer.failedInRound = false →
        u.timer.readBackCount = s.timer.readBackCount + 1 ∧ (2 ≤ s.timer.readBackCount → u.timer.mode = .silent)) ∧
      (s.timer.failedInRound = true → u.timer = s.timer) := by
  obtain ⟨_, _, hfailed, hfew, hthird, _⟩ := h
  cases hf : s.timer.failedInRound with
  | true =>
    rw [(hfailed hf).1]
    exact ⟨hf, fun h => absurd h (by decide), fun _ => rfl⟩
  | false =>
    by_cases hn : s.timer.readBackCount < 2
    · rw [(hfew hf hn).1]
      exact ⟨rfl, fun _ => ⟨rfl, fun h => absurd hn (by omega)⟩, fun h => absurd h (by decide)⟩
    · rw [(hthird hf (by omega)).1]
      exact ⟨rfl, fun _ => ⟨rfl, fun _ => rfl⟩, fun h => absurd h (by decide)⟩

/-- Settles O24, by the count of a failure and the end of the hold of R29. -/
theorem foreignEdgeOnAConfirmationDropsTheStart : Obligations.ForeignEdgeOnAConfirmationDropsTheStart := by
  refine ⟨fun inp s tx hrun htx hk hp hh => ?_, fun inp s tx hrun htx => ⟨fun hk => ?_, fun hk => ?_⟩⟩
  · have he := exec_event (i := .foreignEdgeOnFrame inp) rfl hrun
    change _ = Host.Outcome.next (follow (foreignEdge { s with inputs := inp })) at he
    obtain ⟨u, hu, hfails, hnone⟩ := (failReadBack_spec tx { s with inputs := inp }).2 hk
    rw [foreignEdge_of_some (s := { s with inputs := inp }) htx, hu, releaseRealignment_of_none (hfails.held.trans hh)] at he
    obtain ⟨hfailed, hcount, hstands⟩ := hfails.counts
    obtain ⟨hline, harb, _, _, _, hframe⟩ := hfails
    have hlast : u.arb.lastResult = s.arb.lastResult := by rw [harb]
    have hrecord : u.arb.record = s.arb.record := by rw [harb]
    have hpart : u.arb.part = .won := (congrArg Arbiter.part harb).trans hp
    have hx := follow_arb_of
      (s := { u with arb := { u.arb with window := u.arb.window.map (fun w => { w with holding := false }) } })
      (.inl (by dsimp only; rw [hpart]; decide))
    refine ⟨_, he, ?_, ?_, ?_, ?_, ?_, ?_, ?_, ?_, ?_, fun hf => ?_, fun hf => ?_, fun w hw => ?_, ?_⟩
    · rw [follow_line, hline]
    · rw [hx]
      exact hnone
    · rw [hx]
      exact hpart
    · rw [hx]
      exact hlast
    · rw [hx]
      exact hrecord
    · rw [follow_timer]
      exact hfailed
    · rw [follow_pumps, hframe]
    · rw [follow_players, hframe]
    · rw [follow_table, hframe]
    · rw [follow_timer]
      exact hcount hf
    · rw [follow_timer]
      exact hstands hf
    · rw [hx]
      dsimp only
      rw [harb]
      dsimp only
      rw [hw]
      rfl
    · rw [hx, follow_timer, follow_line, follow_port]
      dsimp only
      rw [hframe]
  · obtain ⟨u, hu, hfails, harb⟩ := (failReadBack_spec tx { s with inputs := inp }).1 hk
    refine ⟨u, ?_, hfails, harb⟩
    rw [← hu, ← foreignEdge_of_some (s := { s with inputs := inp }) htx]
    exact exec_event rfl hrun
  · obtain ⟨u, hu, hfails, hnone⟩ := (failReadBack_spec tx { s with inputs := inp }).2 hk
    refine ⟨u, ?_, hfails, hnone⟩
    rw [← hu, ← foreignEdge_of_some (s := { s with inputs := inp }) htx]
    exact exec_event rfl hrun

end Sys2Proof.Machine
end

section
/-! The end of a frame that has come back whole, and the check's comparisons in terms of the check alone (R6, R75, R76, R151, R154). -/

namespace Sys2Proof.Machine

open Sys2Proof

set_option Elab.async false

/-! ### The check's comparisons -/

/-- What the cable check makes of a frame that arrives on the standby cable, `none` where it is not valid: while a check is RUNNING,
every open comparison closes on it and it is kept (R154). -/
def CableCheck.afterStandby (k : CableCheck) (frame : Option (List Byte)) : CableCheck :=
  if k.running = true then
    { k with roundErrored := k.roundErrored || k.opened.any (fun o => decide (frame ≠ some o.chars)), opened := []
             arrivals := k.arrivals ++ [⟨frame, 0⟩] }
  else k

theorem checkStandbyFrame_eq (frame : Option (List Byte)) (s : State) :
    checkStandbyFrame frame s = { s with line := { s.line with check := s.line.check.afterStandby frame } } := by
  unfold checkStandbyFrame CableCheck.afterStandby
  dsimp only
  split <;> rfl

/-- What the cable check makes of an own frame and its copy on the standby cable (R154). -/
def CableCheck.afterOwn (k : CableCheck) (t : Transmission) : CableCheck :=
  match standbyCopy t with
  | some frame => (k.afterActive t.chars).afterStandby frame
  | none => k.afterActive t.chars

theorem checkOwnFrame_eq (t : Transmission) (s : State) :
    checkOwnFrame t s = { s with line := { s.line with check := s.line.check.afterOwn t } } := by
  unfold checkOwnFrame CableCheck.afterOwn
  rw [checkActiveFrame_eq]
  dsimp only
  cases standbyCopy t with
  | none => rfl
  | some frame => exact checkStandbyFrame_eq frame _

theorem CableCheck.afterActive_of_stopped {k : CableCheck} (h : k.running = false) (cs : List Byte) : k.afterActive cs = k :=
  if_neg fun hr => absurd (h.symm.trans hr.1) (by decide)

theorem CableCheck.afterActive_of_unarmed {k : CableCheck} (h : k.armed = false) (cs : List Byte) : k.afterActive cs = k :=
  if_neg fun hr => absurd (h.symm.trans hr.2) (by decide)

theorem CableCheck.afterStandby_of_stopped {k : CableCheck} (h : k.running = false) (frame : Option (List Byte)) :
    k.afterStandby frame = k :=
  if_neg fun hr => absurd (h.symm.trans hr) (by decide)

theorem CableCheck.afterOwn_of_stopped {k : CableCheck} (h : k.running = false) (t : Transmission) : k.afterOwn t = k := by
  unfold CableCheck.afterOwn
  rw [CableCheck.afterActive_of_stopped h]
  split
  · exact CableCheck.afterStandby_of_stopped h _
  · rfl

/-- With no frame on the standby cable before it, a frame of the active cable stands open. -/
theorem CableCheck.afterActive_of_find_none {k : CableCheck} (hr : k.running = true) (ha : k.armed = true)
    (h : k.arrivals.find? (fun r => decide (r.age ≤ 1000)) = none) (cs : List Byte) :
    k.afterActive cs = { k with opened := k.opened ++ [⟨cs, 0⟩] } := by
  unfold CableCheck.afterActive
  rw [if_pos ⟨hr, ha⟩, h]

/-- A frame of the active cable closes its comparison on the earliest recent frame of the standby cable. -/
theorem CableCheck.afterActive_of_find_some {k : CableCheck} {r : StandbyArrival} (hr : k.running = true) (ha : k.armed = true)
    (h : k.arrivals.find? (fun r => decide (r.age ≤ 1000)) = some r) (cs : List Byte) :
    k.afterActive cs = { k with roundErrored := k.roundErrored || decide (r.chars ≠ some cs) } := by
  unfold CableCheck.afterActive
  rw [if_pos ⟨hr, ha⟩, h]

/-! ### The copy of an own frame -/

theorem returnedValue_readingsOf (c : Byte) : returnedValue (.char (readingsOf c)) = some (c, true) := by
  unfold returnedValue
  simp [judgeReadings_readingsOf]

/-- A copy that was read on the standby cable character by character is a frame there, valid or not. -/
theorem standbyCopy_of_map {t : Transmission} {copy : List Byte}
    (h : t.standby = copy.map (fun c => Returned.char (readingsOf c))) :
    standbyCopy t =
      some (if copy.length = t.kind.length ∧ frameCheckOk t.kind copy = true then some copy else none) := by
  have hm (cs : List Byte) : (cs.map (fun c => Returned.char (readingsOf c))).mapM returnedValue = some (cs.map (·, true)) := by
    induction cs with
    | nil => rfl
    | cons c cs ih => simp [List.mapM_cons, returnedValue_readingsOf, ih]
  have hfst : (copy.map (·, true)).map Prod.fst = copy := List.map_map.trans (List.map_id copy)
  have hall : (copy.map (·, true)).all Prod.snd = true := by simp
  unfold standbyCopy
  rw [h, hm]
  dsimp only
  rw [hfst, hall]
  simp only [Bool.true_and, Bool.and_eq_true, decide_eq_true_eq]
  split <;> rfl

/-! ### The end of a transmission -/

theorem finishTransmission_announcement {t : Transmission} (h : t.kind = .announcement) (s : State) :
    finishTransmission t s = { s with line := { s.line with tx := none, check := s.line.check.afterOwn t } } := by
  unfold finishTransmission
  rw [checkOwnFrame_eq]
  simp only [h]

/-- The arbiter after a confirmation that came back whole: reported clean, its window not free and its record replaced (R75, R76). -/
def Arbiter.confirmed (a : Arbiter) (r : WindowRecord) : Arbiter :=
  { a with confirmClean := true, record := some r, window := a.window.map (fun w => { w with notFree := true }) }

/-- The record of a confirmation in the window (R76). -/
def Confirmation.recordOf (c : Confirmation) (round : Word16) : WindowRecord :=
  { station := c.station, pump := c.pump, rating := c.rating, round := round }

theorem finishTransmission_confirmation {t : Transmission} (h : t.kind = .confirmation) (s : State) :
    finishTransmission t s =
      { s with arb := s.arb.confirmed ((parseConfirmation t.chars).recordOf s.timer.count)
               line := { s.line with tx := none, check := s.line.check.afterOwn t } } := by
  unfold finishTransmission
  rw [checkOwnFrame_eq]
  simp only [h]
  rfl

theorem endTransmission_of_whole {s : State} {tx : Transmission} (htx : s.line.tx = some tx) (hw : tx.returned = tx.chars.length) :
    endTransmission s = finishTransmission tx s := by
  unfold endTransmission
  simp only [htx]
  exact if_pos hw

/-- What R177 reads in character 2 of a confirmation. -/
theorem parseConfirmation_eq (c1 c2 c3 c4 : Byte) :
    (parseConfirmation [c1, c2, c3, c4]).station.val = c2.toNat % 16 ∧
      (parseConfirmation [c1, c2, c3, c4]).pump.val = c2.toNat / 16 % 4 ∧ (parseConfirmation [c1, c2, c3, c4]).rating = c3 := by
  refine ⟨?_, ?_, rfl⟩
  · change (c2.extractLsb' 0 4).toNat % 16 = _
    rw [BitVec.extractLsb'_toNat, Nat.shiftRight_eq_div_pow]
    omega
  · change (c2.extractLsb' 4 2).toNat % 4 = _
    rw [BitVec.extractLsb'_toNat, Nat.shiftRight_eq_div_pow]
    omega

/-- Settles O25, by the two kinds of frame and the check's comparison of the frame with its copy. -/
theorem transmissionEndReportsACleanFrame : Obligations.TransmissionEndReportsACleanFrame := by
  intro s tx hrun htx hw
  have he := exec_event (i := .transmissionEnd) rfl hrun
  change _ = Host.Outcome.next (follow (endTransmission s)) at he
  rw [endTransmission_of_whole htx hw] at he
  have hline : (follow (finishTransmission tx s)).line = { s.line with tx := none, check := s.line.check.afterOwn tx } := by
    rw [follow_line]
    cases hk : tx.kind with
    | announcement => rw [finishTransmission_announcement hk]
    | confirmation => rw [finishTransmission_confirmation hk]
  refine ⟨_, he, ?_, fun hr => ?_, fun copy hcopy hr ha harr hop => ?_, fun hk => ?_, fun c2 c3 c4 hk hchars => ?_⟩
  · rw [hline]
  · rw [hline]
    exact CableCheck.afterOwn_of_stopped hr tx
  · rw [hline]
    have hopen := CableCheck.afterActive_of_find_none hr ha (by rw [harr]; rfl) tx.chars
    rw [hop] at hopen
    unfold CableCheck.afterOwn
    rw [standbyCopy_of_map hcopy, hopen]
    dsimp only
    unfold CableCheck.afterStandby
    rw [if_pos hr]
    refine ⟨rfl, fun hsame hlen hok => ?_, fun hne => ?_⟩
    · rw [if_pos ⟨by rw [hsame]; exact hlen, by rw [hsame]; exact hok⟩, hsame]
      simp
    · by_cases hv : copy.length = tx.kind.length ∧ frameCheckOk tx.kind copy = true
      · rw [if_pos hv]
        simp [hne]
      · rw [if_neg hv]
        simp
  · rw [hline, finishTransmission_announcement hk]
  · obtain ⟨hstation, hpump, hrating⟩ := parseConfirmation_eq 0xC3 c2 c3 c4
    rw [hline, finishTransmission_confirmation hk, hchars]
    refine ⟨(parseConfirmation [0xC3, c2, c3, c4]).recordOf s.timer.count, ?_, ?_, hstation, hpump, hrating, rfl, fun w hwin => ?_,
      fun hp => ?_, rfl⟩
    · rw [follow_arb]
      split <;> rfl
    · rw [follow_arb]
      split <;> rfl
    · rw [follow_window]
      change s.arb.window.map _ = _
      rw [hwin]
      rfl
    · rw [follow_arb_of (.inl (by change s.arb.part ≠ _; rw [hp]; decide))]
      exact ⟨hp, rfl⟩

end Sys2Proof.Machine
end

section
/-! The start after a clean confirmation (R70, R72, R85, R86, R135). -/

namespace Sys2Proof.Machine

open Sys2Proof

set_option Elab.async false

/-! ### A start reaching an idle pump -/

theorem startPump_of_unsensed {k : PumpIx} {s : State} (hi : (s.pump k).state = .idle)
    (hp : s.inputs.primeSense.getLsbD k = false) :
    startPump k s = s.setPump k { s.pump k with state := .priming, primeTimer := some 30000000 } := by
  unfold startPump
  rw [if_pos hi]
  exact if_neg (by change ¬ s.inputs.primeSense.getLsbD k = true; rw [hp]; decide)

theorem startPump_of_sensed {k : PumpIx} {s : State} (hi : (s.pump k).state = .idle)
    (hp : s.inputs.primeSense.getLsbD k = true) :
    startPump k s =
      enterRampUp k (s.setPump k { s.pump k with state := .priming, primeTimer := some 30000000 }) := by
  unfold startPump
  rw [if_pos hi]
  exact if_pos hp

/-- A pump started is PRIMING or in RAMP_UP. -/
theorem startPump_active {k : PumpIx} {s : State} (hi : (s.pump k).state = .idle) :
    ((startPump k s).pump k).state.active = true := by
  cases hp : s.inputs.primeSense.getLsbD k with
  | false =>
    rw [startPump_of_unsensed hi hp, State.pump_setPump_self]
    rfl
  | true =>
    rw [startPump_of_sensed hi hp, enterRampUp_pump_self]
    rfl

/-! ### The sampling mode after a start -/

theorem State.wantsContinuous_of_active {s : State} {k : PumpIx} (h : (s.pump k).state.active = true) :
    s.wantsContinuous = true := by
  unfold State.wantsContinuous State.anyActive
  rw [List.any_eq_true.mpr ⟨k, mem_pumpList k, h⟩]
  rfl

theorem syncSampling_of_continuous {s : State} (hs : s.gauge.sampling = .continuous) (hw : s.wantsContinuous = true) :
    syncSampling s = s := by
  unfold syncSampling
  rw [hs, hw]

theorem syncSampling_of_periodic {s : State} (hs : s.gauge.sampling = .periodic) (hw : s.wantsContinuous = true) :
    syncSampling s = beginScans { s with gauge := { s.gauge with sampling := .continuous, waitCount := 0 } } := by
  unfold syncSampling
  rw [hs, hw]

/-- The sampling mode of a part that samples CONTINUOUS stands, and that of one that samples PERIODIC becomes CONTINUOUS with a scan
of the polder group under way (R136). -/
theorem syncSampling_gauge_of_wants {s : State} (hw : s.wantsContinuous = true) :
    (syncSampling s).gauge.sampling = .continuous ∧
      (s.gauge.sampling = .continuous → (syncSampling s).gauge = s.gauge) ∧
      (s.gauge.sampling = .periodic →
        (syncSampling s).gauge.waitCount = 0 ∧ (syncSampling s).gauge.polder.scan.isSome = true) := by
  cases hs : s.gauge.sampling with
  | continuous =>
    rw [syncSampling_of_continuous hs hw]
    exact ⟨hs, fun _ => rfl, fun h => absurd h (by decide)⟩
  | periodic =>
    rw [syncSampling_of_periodic hs hw]
    refine ⟨rfl, fun h => absurd h (by decide), fun _ => ⟨rfl, ?_⟩⟩
    change (s.gauge.polder.beginScan 0).scan.isSome = true
    unfold GaugeGroup.beginScan
    split
    · assumption
    · rfl

/-! ### The start taken -/

/-- The state in which the own start has been seen (R11, R72). -/
def State.startSeen (s : State) : State := { s with table := { s.table with ownStartSeen := some s.timer.count } }

/-- The start after a clean confirmation, before the hold of a realignment ends (R72). -/
def startTaken (s : State) : State :=
  let t := takeStart s.startSeen
  { t with arb := { t.arb with confirmClean := false, pendingStart := none } }

/-- No confirmation stands complete and not yet ended. -/
def State.confirmationUnfinished (s : State) : Prop :=
  ∀ x, s.line.tx = some x → x.kind = .announcement ∨ x.returned ≠ x.chars.length

theorem finishConfirmation_of_unfinished {s : State} (h : s.confirmationUnfinished) : finishConfirmation s = s := by
  unfold finishConfirmation
  split
  · rename_i t ht
    refine if_neg fun hk => ?_
    rcases h t ht with ha | hn
    · exact absurd (ha.symm.trans hk.1) (by decide)
    · exact hn hk.2
  · rfl

theorem takeOrDropStart_of_clean {s : State} (hu : s.confirmationUnfinished) (hc : s.arb.confirmClean = true) :
    takeOrDropStart s = releaseRealignment (startTaken s) := by
  unfold takeOrDropStart
  rw [finishConfirmation_of_unfinished hu]
  exact if_pos hc

theorem takeOrDropStart_of_not_clean {s : State} (hu : s.confirmationUnfinished) (hc : s.arb.confirmClean = false) :
    takeOrDropStart s = s := by
  unfold takeOrDropStart
  rw [finishConfirmation_of_unfinished hu]
  exact if_neg (by rw [hc]; decide)

theorem takeStart_of_valid {s : State} {k : PumpIx} (hk : s.arb.pendingStart = some k) (hv : s.startIsValid k) :
    takeStart s = syncSampling (startPump k s) := by
  unfold takeStart
  simp only [hk]
  exact if_pos ((State.startIsValid_iff s k).mp hv)

theorem takeStart_of_invalid {s : State} {k : PumpIx} (hk : s.arb.pendingStart = some k) (hv : ¬ s.startIsValid k) :
    takeStart s = s := by
  unfold takeStart
  simp only [hk]
  exact if_neg fun h => hv ((State.startIsValid_iff s k).mpr h)

theorem takeStart_of_none {s : State} (hk : s.arb.pendingStart = none) : takeStart s = s := by
  unfold takeStart
  simp only [hk]

/-- The start taken moves the pumps, the players and the gauge unit, and of the arbiter the pending start and the report. -/
theorem startTaken_frame (s : State) :
    startTaken s =
      { s with table := { s.table with ownStartSeen := some s.timer.count }
               arb := { s.arb with confirmClean := false, pendingStart := none }
               pumps := (startTaken s).pumps, players := (startTaken s).players, gauge := (startTaken s).gauge } := by
  obtain ⟨_, _, _, e⟩ := takeStart_changes s.startSeen
  unfold startTaken
  rw [e]
  rfl

/-- An invalid start is dropped: nothing starts. -/
theorem startTaken_of_invalid {s : State} {k : PumpIx} (hk : s.arb.pendingStart = some k) (hv : ¬ s.startIsValid k) :
    startTaken s =
      { s with table := { s.table with ownStartSeen := some s.timer.count }
               arb := { s.arb with confirmClean := false, pendingStart := none } } := by
  unfold startTaken
  rw [takeStart_of_invalid (s := s.startSeen) hk hv]
  rfl

theorem startTaken_of_none {s : State} (hk : s.arb.pendingStart = none) :
    startTaken s =
      { s with table := { s.table with ownStartSeen := some s.timer.count }, arb := { s.arb with confirmClean := false } } := by
  unfold startTaken
  rw [takeStart_of_none (s := s.startSeen) hk]
  unfold State.startSeen
  dsimp only
  rw [← hk]

/-- A valid start is taken: its pump starts and the sampling mode follows. -/
theorem startTaken_of_valid {s : State} {k : PumpIx} (hk : s.arb.pendingStart = some k) (hv : s.startIsValid k) :
    startTaken s =
      { syncSampling (startPump k s.startSeen) with arb := { s.arb with confirmClean := false, pendingStart := none } } := by
  unfold startTaken
  obtain ⟨_, _, hp⟩ := startPump_changes k s.startSeen
  obtain ⟨_, hs⟩ := syncSampling_changes (startPump k s.startSeen)
  have ht : takeStart s.startSeen = syncSampling (startPump k s.startSeen) := takeStart_of_valid (s := s.startSeen) hk hv
  rw [ht, hs, hp]
  rfl

theorem startTaken_pump {s : State} {k : PumpIx} (hk : s.arb.pendingStart = some k) (hv : s.startIsValid k) (j : PumpIx) :
    (startTaken s).pump j = (startPump k s.startSeen).pump j ∧ (startTaken s).player j = (startPump k s.startSeen).player j ∧
      (startTaken s).players = (startPump k s.startSeen).players := by
  rw [startTaken_of_valid hk hv]
  obtain ⟨_, hs⟩ := syncSampling_changes (startPump k s.startSeen)
  rw [hs]
  exact ⟨rfl, rfl, rfl⟩

/-- A start with PRIME_SENSE not asserted begins the priming (R85). -/
theorem startTaken_of_unsensed {s : State} {k : PumpIx} (hk : s.arb.pendingStart = some k) (hv : s.startIsValid k)
    (hp : s.inputs.primeSense.getLsbD k = false) :
    (startTaken s).pump k = { s.pump k with state := .priming, primeTimer := some 30000000 } ∧
      (startTaken s).players = s.players := by
  obtain ⟨hpump, _, hplayers⟩ := startTaken_pump hk hv k
  rw [hpump, hplayers, startPump_of_unsensed (s := s.startSeen) hv.1 hp]
  exact ⟨State.pump_setPump_self k _ _, rfl⟩

/-- A start with PRIME_SENSE asserted passes through priming to RAMP_UP (R86, R88). -/
theorem startTaken_of_sensed {s : State} {k : PumpIx} (hk : s.arb.pendingStart = some k) (hv : s.startIsValid k)
    (hp : s.inputs.primeSense.getLsbD k = true) :
    (startTaken s).pump k = (s.pump k).toRampUp ∧
      (startTaken s).player k = Player.beginPlay s.profile (s.pointers[k]).rate .oneShot (s.pointers[k]).up := by
  obtain ⟨hpump, hplayer, _⟩ := startTaken_pump hk hv k
  rw [hpump, hplayer, startPump_of_sensed (s := s.startSeen) hv.1 hp, enterRampUp_pump_self, enterRampUp_player_self,
    State.pump_setPump_self]
  exact ⟨rfl, rfl⟩

theorem startTaken_pump_of_ne {s : State} {j k : PumpIx} (hk : s.arb.pendingStart = some k) (h : j ≠ k) :
    (startTaken s).pump j = s.pump j ∧ (startTaken s).player j = s.player j := by
  by_cases hv : s.startIsValid k
  · obtain ⟨hpump, hplayer, _⟩ := startTaken_pump hk hv j
    rw [hpump, hplayer]
    exact startPump_pump_of_ne h s.startSeen
  · rw [startTaken_of_invalid hk hv]
    exact ⟨rfl, rfl⟩

/-- The sampling mode follows the pump's change of state at once (R135). -/
theorem startTaken_gauge {s : State} {k : PumpIx} (hk : s.arb.pendingStart = some k) (hv : s.startIsValid k) :
    (startTaken s).gauge.sampling = .continuous ∧ (s.gauge.sampling = .continuous → (startTaken s).gauge = s.gauge) ∧
      (s.gauge.sampling = .periodic →
        (startTaken s).gauge.waitCount = 0 ∧ (startTaken s).gauge.polder.scan.isSome = true) := by
  have hg : (startPump k s.startSeen).gauge = s.gauge := by
    obtain ⟨_, _, hp⟩ := startPump_changes k s.startSeen
    rw [hp]
    rfl
  have h := syncSampling_gauge_of_wants (State.wantsContinuous_of_active (startPump_active (s := s.startSeen) hv.1))
  rw [hg] at h
  rw [startTaken_of_valid hk hv]
  exact h

/-- The pump that starts joins the committed ones. -/
theorem countPumps_succ {P Q : PumpIx → Bool} {k : PumpIx} (hP : P k = false) (hQ : Q k = true) (h : ∀ j, j ≠ k → Q j = P j) :
    countPumps Q = countPumps P + 1 := by
  have e : Q = fun j => if j = k then true else P j := by
    funext j
    by_cases hj : j = k
    · rw [if_pos hj, hj, hQ]
    · rw [if_neg hj, h j hj]
  subst e
  unfold countPumps
  fin_cases k <;> simp_all [List.filter_cons] <;> grind

/-- The committed discharge grows by a rating (R50, R72). -/
theorem startTaken_committed {s : State} {k : PumpIx} (hk : s.arb.pendingStart = some k) (hv : s.startIsValid k)
    (hp : s.inputs.primeSense.getLsbD k = false) :
    (startTaken s).committedDischarge = s.committedDischarge + (s.straps.rating.val + 1) := by
  have hstraps : (startTaken s).straps = s.straps := by rw [startTaken_frame]
  unfold State.committedDischarge
  rw [hstraps, countPumps_succ (P := fun j => decide ((s.pump j).state ∈ ([.priming, .rampUp, .running] : List PumpState)))
    (k := k), Nat.mul_add, Nat.mul_one]
  · rw [hv.1]
    rfl
  · rw [(startTaken_of_unsensed hk hv hp).1]
    rfl
  · intro j hj
    rw [(startTaken_pump_of_ne hk hj).1]

/-- The following of the mode after the start is repeated by the following after the event. -/
theorem follow_syncSampling_with_arb (a : Arbiter) (s : State) : follow { syncSampling s with arb := a } = follow { s with arb := a } := by
  unfold follow
  rw [← syncSampling_with_arb, syncSampling_idem]

end Sys2Proof.Machine
end

section
/-! START_TAKEN_OR_DROPPED (R70, R72). -/

namespace Sys2Proof.Machine

open Sys2Proof

set_option Elab.async false

theorem startTaken_players_of_invalid {s : State} {k : PumpIx} (hk : s.arb.pendingStart = some k) (hv : ¬ s.startIsValid k) :
    (startTaken s).pumps = s.pumps ∧ (startTaken s).players = s.players ∧ (startTaken s).gauge = s.gauge := by
  rw [startTaken_of_invalid hk hv]
  exact ⟨rfl, rfl, rfl⟩

theorem startTaken_arb (s : State) : (startTaken s).arb = { s.arb with confirmClean := false, pendingStart := none } := by
  rw [startTaken_frame]

theorem startTaken_table (s : State) : (startTaken s).table = { s.table with ownStartSeen := some s.timer.count } := by
  rw [startTaken_frame]

/-- The start taken, the end of the hold with no realignment held and the following of the event change the gauge unit by the
following alone. -/
theorem follow_startTaken (s : State) (a : Arbiter) :
    follow { startTaken s with arb := a } =
      follow { s with table := (startTaken s).table, arb := a, pumps := (startTaken s).pumps, players := (startTaken s).players } := by
  unfold startTaken
  obtain e | ⟨k, _, _, e⟩ := takeStart_cases s.startSeen
  · rw [e]
    rfl
  · rw [e]
    dsimp only
    obtain ⟨_, _, hp⟩ := startPump_changes k s.startSeen
    obtain ⟨_, hs⟩ := syncSampling_changes (startPump k s.startSeen)
    refine (follow_syncSampling_with_arb a _).trans ?_
    rw [hs, hp]
    rfl

/-- A pump with a play begun plays the step that the play begins with. -/
theorem Player.beginPlay_playing (mem : Vector ProfileStep 64) (rate : Nat) (mode : PlayMode) (i : Fin 64) :
    (Player.beginPlay mem rate mode i).playing = true ∧ (Player.beginPlay mem rate mode i).step = some i := ⟨rfl, rfl⟩

theorem follow_committedDischarge (s : State) : (follow s).committedDischarge = s.committedDischarge := by
  unfold State.committedDischarge
  simp only [follow_pump, follow_straps]

theorem follow_valveOpen (k : PumpIx) (s : State) : (follow s).valveOpen k = s.valveOpen k := by
  unfold State.valveOpen State.isRunning
  rw [follow_pump, follow_cond]

/-- What the arbiter of a station that has won keeps through the following of an event. -/
theorem follow_arb_of_won {s : State} (h : s.arb.part = .won) : (follow s).arb = s.arb :=
  follow_arb_of (.inl (by rw [h]; decide))

/-- The end of a transmission that has come back whole as a confirmation, in the words of the report that the arbiter takes. -/
theorem transmissionEnd_of_confirmation {s : State} (hrun : s.cond = .running) {x : Transmission} (hx : s.line.tx = some x)
    (hk : x.kind = .confirmation) (hr : x.returned = x.chars.length) :
    ∃ e, exec .transmissionEnd s = .next e ∧
      { s with line := e.line, arb := { s.arb with confirmClean := true, record := e.arb.record, window := e.arb.window } } =
        finishTransmission x s := by
  have he := exec_event (i := .transmissionEnd) rfl hrun
  change _ = Host.Outcome.next (follow (endTransmission s)) at he
  rw [endTransmission_of_whole hx hr] at he
  refine ⟨_, he, ?_⟩
  have hrecord : (follow (finishTransmission x s)).arb.record = (finishTransmission x s).arb.record := by
    rw [follow_arb]
    split <;> rfl
  rw [follow_line, follow_window, hrecord, finishTransmission_confirmation hk]
  rfl

/-- A complete confirmation is ended by the event that takes the start, where its own end has not come yet. -/
theorem takeOrDropStart_of_complete {s : State} {x : Transmission} (hx : s.line.tx = some x) (hk : x.kind = .confirmation)
    (hr : x.returned = x.chars.length) : takeOrDropStart s = takeOrDropStart (finishTransmission x s) := by
  have hfinish : finishConfirmation s = finishTransmission x s := by
    unfold finishConfirmation
    simp only [hx]
    exact if_pos ⟨hk, hr⟩
  have hidle : finishConfirmation (finishTransmission x s) = finishTransmission x s := by
    refine finishConfirmation_of_unfinished fun y hy => ?_
    rw [finishTransmission_confirmation hk] at hy
    exact absurd hy (by simp)
  unfold takeOrDropStart
  rw [hfinish, hidle]

/-- The part's own inputs pass the end of a frame unread. -/
theorem finishTransmission_withInputs (x : Transmission) (inp : Inputs) (s : State) :
    finishTransmission x { s with inputs := inp } = { finishTransmission x s with inputs := inp } := by
  cases hk : x.kind with
  | announcement => rw [finishTransmission_announcement hk, finishTransmission_announcement hk]
  | confirmation => rw [finishTransmission_confirmation hk, finishTransmission_confirmation hk]

/-- Settles O20, by the start taken, the end of the hold of R29 and the end of a confirmation that the event finds complete. -/
theorem cleanConfirmationTakesAValidStart : Obligations.CleanConfirmationTakesAValidStart := by
  have clean (inp : Inputs) (s : State) (hrun : s.cond = .running) (hu : s.confirmationUnfinished)
      (hc : s.arb.confirmClean = true) :
      exec (.startTakenOrDropped inp) s = .next (follow (releaseRealignment (startTaken { s with inputs := inp }))) := by
    rw [← takeOrDropStart_of_clean (s := { s with inputs := inp }) hu hc]
    exact exec_event rfl hrun
  refine ⟨fun inp s k hrun hu hclean hk hp hh => ?_, fun inp s k hrun hu hclean hk => ?_, fun inp s hrun => ?_⟩
  · have he := clean inp s hrun hu hclean
    have hunsensed := startTaken_of_unsensed (s := { s with inputs := inp }) hk
    have hsensed := startTaken_of_sensed (s := { s with inputs := inp }) hk
    have hinvalid := startTaken_players_of_invalid (s := { s with inputs := inp }) hk
    have hothers (j : PumpIx) (hj : j ≠ k) := startTaken_pump_of_ne (s := { s with inputs := inp }) hk hj
    have hcommitted := startTaken_committed (s := { s with inputs := inp }) hk
    have htable := startTaken_table { s with inputs := inp }
    have hfollow := follow_startTaken { s with inputs := inp }
    have hframe := startTaken_frame { s with inputs := inp }
    have harb := startTaken_arb { s with inputs := inp }
    rw [releaseRealignment_of_none (by rw [hframe]; exact hh), hfollow, harb] at he
    generalize startTaken { s with inputs := inp } = u at *
    have hu' : u.committedDischarge = ({ s with pumps := u.pumps } : State).committedDischarge := by rw [hframe]; rfl
    refine ⟨_, he, ?_, ?_, ?_, ?_, ?_, fun w hw => ?_, fun hv hs => ?_, fun hv hs => ?_, fun hv => ?_, fun j hj => ?_, ?_⟩
    · rw [follow_table]
      exact htable
    · rw [follow_arb_of_won (by exact hp)]
    · rw [follow_arb_of_won (by exact hp)]
      exact hp
    · rw [follow_arb_of_won (by exact hp)]
    · rw [follow_arb_of_won (by exact hp)]
    · rw [follow_window]
      exact congrArg (Option.map _) hw
    · obtain ⟨hpump, hplayers⟩ := hunsensed hv hs
      refine ⟨?_, ?_, ?_, ?_⟩
      · rw [follow_pump]
        exact hpump
      · rw [follow_players]
        exact hplayers
      · rw [follow_valveOpen]
        change (s.isRunning && decide ((u.pump k).state = .priming)) = true
        rw [State.isRunning_of_running hrun, hpump]
        rfl
      · rw [follow_committedDischarge]
        exact hu'.symm.trans (hcommitted hv hs)
    · obtain ⟨hpump, hplayer⟩ := hsensed hv hs
      rw [follow_pump, follow_player]
      change (u.pump k).state = _ ∧ (u.pump k).primeTimer = _ ∧ (u.pump k).minRunTimer = _ ∧ (u.pump k).feedbackTimer = _ ∧
        (u.player k).playing = _ ∧ (u.player k).step = _
      rw [hpump, hplayer]
      exact ⟨rfl, rfl, rfl, rfl, rfl, rfl⟩
    · rw [follow_pumps, follow_players]
      obtain ⟨hpumps, hplayers, _⟩ := hinvalid hv
      exact ⟨hpumps, hplayers⟩
    · rw [follow_pump]
      exact (hothers j hj).1
    · rw [follow_table, follow_pumps, follow_players, follow_arb_of_won (by exact hp)]
  · refine ⟨startTaken { s with inputs := inp }, clean inp s hrun hu hclean, startTaken_table _,
      startTaken_arb { s with inputs := inp }, fun hv hs => ?_, fun hv hs => ?_, fun hv => ?_, fun hv => ?_, fun j hj => ?_, ?_⟩
    · exact startTaken_of_unsensed (s := { s with inputs := inp }) hk hv hs
    · obtain ⟨hpump, hplayer⟩ := startTaken_of_sensed (s := { s with inputs := inp }) hk hv hs
      rw [hpump, hplayer]
      exact ⟨rfl, rfl, rfl⟩
    · exact startTaken_gauge (s := { s with inputs := inp }) hk hv
    · exact startTaken_players_of_invalid (s := { s with inputs := inp }) hk hv
    · exact startTaken_pump_of_ne (s := { s with inputs := inp }) hk hj
    · have h := startTaken_frame { s with inputs := inp }
      generalize startTaken { s with inputs := inp } = u at *
      rw [h]
  · refine ⟨fun hu hc => ?_, fun hu hc hk => ?_, fun hn => ?_⟩
    · have hx := takeOrDropStart_of_not_clean (s := { s with inputs := inp }) hu hc
      exact (exec_event (i := .startTakenOrDropped inp) rfl hrun).trans (congrArg (fun t => Host.Outcome.next (follow t)) hx)
    · rw [clean inp s hrun hu hc, startTaken_of_none (s := { s with inputs := inp }) hk]
    · obtain ⟨x, hx, hn⟩ : ∃ x, s.line.tx = some x ∧ ¬ (x.kind = .announcement ∨ x.returned ≠ x.chars.length) := by
        simpa using hn
      have hkind : x.kind = .confirmation := by
        cases hk : x.kind with
        | announcement => exact absurd (.inl hk) hn
        | confirmation => rfl
      have hret : x.returned = x.chars.length := by
        by_contra h
        exact hn (.inr h)
      obtain ⟨e, he, hstate⟩ := transmissionEnd_of_confirmation hrun hx hkind hret
      refine ⟨e, he, ?_⟩
      rw [hstate]
      have hrun' : (finishTransmission x s).cond = .running := by
        rw [finishTransmission_confirmation hkind]
        exact hrun
      have hw : withInputs inp (finishTransmission x s) = finishTransmission x (withInputs inp s) :=
        (finishTransmission_withInputs x inp s).symm
      rw [exec_event (i := .startTakenOrDropped inp) rfl hrun, exec_event (i := .startTakenOrDropped inp) rfl hrun']
      change Host.Outcome.next (follow (takeOrDropStart (withInputs inp s))) =
        Host.Outcome.next (follow (takeOrDropStart (withInputs inp (finishTransmission x s))))
      rw [hw, takeOrDropStart_of_complete (s := withInputs inp s) hx hkind hret]

end Sys2Proof.Machine
end

section
/-! The characters a decoder forms and the frames they build (R27, R30, R141 to R145). -/

namespace Sys2Proof.Machine

open Sys2Proof

set_option Elab.async false

/-! ### The findings on a character -/

/-- The parity of the cells is odd where an odd number of them is. -/
theorem foldl_xor_eq_countP (p : Nat → Bool) (l : List Nat) (b : Bool) :
    l.foldl (fun acc i => xor acc (p i)) b = xor b (decide (l.countP p % 2 = 1)) := by
  induction l generalizing b with
  | nil => simp
  | cons i l ih =>
    rw [List.foldl_cons, ih, List.countP_cons]
    have h2 : l.countP p % 2 = 0 ∨ l.countP p % 2 = 1 := by omega
    cases hp : p i <;> rcases h2 with h | h <;> cases b <;> simp [Nat.add_mod, h]

theorem judgeReadings_of_released {r : Readings} (h : r.getLsbD 0 = true) : judgeReadings r = .falseStart := if_pos h

theorem judgeReadings_of_driven {r : Readings} (h : r.getLsbD 0 = false) :
    judgeReadings r =
      .char (r.extractLsb' 1 8) (decide (((List.range 9).countP (fun i => r.getLsbD (i + 1))) % 2 = 1)) (!r.getLsbD 10) := by
  unfold judgeReadings
  rw [if_neg (by rw [h]; decide)]
  dsimp only
  rw [foldl_xor_eq_countP (fun i => r.getLsbD (i + 1)), Bool.false_xor]

/-- The kind that a lead begins. -/
theorem leadKind_of_lead {v : Byte} (h : v = 0x5A ∨ v = 0xC3) :
    leadKind v = some (if v = 0x5A then .announcement else .confirmation) := by
  rcases h with h | h <;> rw [h] <;> decide

theorem leadKind_of_not {v : Byte} (h : ¬ (v = 0x5A ∨ v = 0xC3)) : leadKind v = none := by
  unfold leadKind
  rw [if_neg fun h' => h (.inl h'), if_neg fun h' => h (.inr h')]

/-! ### The schedule at the first start edge -/

theorem scheduleBack_of_lt {ago phase : Nat} (h : phase < ago) (count : Word16) :
    scheduleBack ago phase count = (phase + 500000 - ago, count - 1) := if_pos h

theorem scheduleBack_of_not_lt {ago phase : Nat} (h : ¬ phase < ago) (count : Word16) :
    scheduleBack ago phase count = (phase - ago, count) := if_neg h

/-- The own phase and count 336 µs back, on the schedule that a realignment since has replaced where there was one (R27, R30). -/
theorem RoundTimer.before_start_edge (t : RoundTimer) :
    t.before 336 =
      let edge := match t.replaced.find? (fun r => decide (r.age ≤ 336)) with
        | some r => (r.phase + r.age, r.count)
        | none => (t.phase, t.count)
      (if edge.1 < 336 then edge.1 + 499664 else edge.1 - 336, if edge.1 < 336 then edge.2 - 1 else edge.2) := by
  cases h : t.replaced.find? (fun r => decide (r.age ≤ 336)) with
  | none =>
    rw [RoundTimer.before_of_find_none h]
    dsimp only
    by_cases hp : t.phase < 336
    · rw [scheduleBack_of_lt hp, if_pos hp, if_pos hp, show t.phase + 500000 - 336 = t.phase + 499664 by omega]
    · rw [scheduleBack_of_not_lt hp, if_neg hp, if_neg hp]
  | some r =>
    have hage : r.age ≤ 336 := by simpa using List.find?_some h
    rw [RoundTimer.before_of_find_some h]
    dsimp only
    by_cases hp : r.phase + r.age < 336
    · rw [scheduleBack_of_lt (show r.phase < 336 - r.age by omega), if_pos hp, if_pos hp,
        show r.phase + 500000 - (336 - r.age) = r.phase + r.age + 499664 by omega]
    · rw [scheduleBack_of_not_lt (show ¬ r.phase < 336 - r.age by omega), if_neg hp, if_neg hp,
        show r.phase - (336 - r.age) = r.phase + r.age - 336 by omega]

/-! ### The frame that the character finds -/

/-- What a character that begins now finds on its cable: a frame whose next character has not begun in time is truncated (R142). -/
def CableState.inTime (x : CableState) : CableState := if x.overdue then x.truncated else x

theorem CableState.inTime_eq (x : CableState) :
    x.inTime =
      if ∃ f, x.assembly = some f ∧ f.chars.length < f.kind.length ∧ 704 < f.sinceChar then
        { x with
          assembly := none
          checkCount := if x.locked = true ∧ x.assembly.all (fun f => !f.void) then min 255 (x.checkCount + 1)
                        else x.checkCount }
      else x := by
  unfold CableState.inTime
  by_cases h : x.overdue = true
  · obtain ⟨f, hf, hlen, hlate⟩ := (CableState.overdue_iff x).mp h
    rw [if_pos h, if_pos ⟨f, hf, hlen, hlate⟩, CableState.truncated_of_some (CableState.underWay_eq_some.mpr ⟨hf, hlen⟩), hf]
    cases hv : f.void <;> cases x.locked <;> simp [hv]
  · rw [if_neg h, if_neg fun h' => h ((CableState.overdue_iff x).mpr h')]

theorem CableState.underWay_of_none {x : CableState} (h : x.assembly = none) : x.underWay = none := by
  unfold CableState.underWay
  rw [h]
  rfl

/-- What a character makes of the cable it is completed on (R142, R145). -/
def CableState.received (x : CableState) (s : State) (v : Byte) (parityFault stopFault : Bool) : CableState :=
  { (if parityFault || stopFault then x.countParity else x) with
    assembly := assemble s v parityFault stopFault x.underWay, decoder := if stopFault then .waitRelease else .seeking }

/-- The count of a faulty character while the cable is LOCKED (R145). -/
theorem CableState.received_eq (x : CableState) (s : State) (v : Byte) (parityFault stopFault : Bool) :
    x.received s v parityFault stopFault =
      { x with
        parityCount := if (parityFault || stopFault) && x.locked then min 255 (x.parityCount + 1) else x.parityCount
        decoder := if stopFault then .waitRelease else .seeking
        assembly := assemble s v parityFault stopFault x.underWay } := by
  unfold CableState.received CableState.countParity
  cases parityFault <;> cases stopFault <;> cases hl : x.locked <;> simp [satAdd, hl]

/-- A good lead with no frame under way begins one. -/
theorem assemble_of_lead {v : Byte} (h : v = 0x5A ∨ v = 0xC3) (s : State) :
    assemble s v false false none = some (Assembly.begin s (if v = 0x5A then .announcement else .confirmation) v) := by
  unfold assemble
  rw [leadKind_of_lead h]
  rfl

/-- Any other character with no frame under way is a stray. -/
theorem assemble_of_stray {v : Byte} {parityFault stopFault : Bool}
    (h : ¬ ((v = 0x5A ∨ v = 0xC3) ∧ parityFault = false ∧ stopFault = false)) (s : State) :
    assemble s v parityFault stopFault none = none := by
  unfold assemble
  cases parityFault with
  | true => rfl
  | false =>
    cases stopFault with
    | true => rfl
    | false => rw [leadKind_of_not fun hl => h ⟨hl, rfl, rfl⟩]; rfl

theorem State.decodersHeld_iff (s : State) :
    s.decodersHeld = true ↔ s.line.tx.isSome = true ∨ s.line.windowHold = true := by
  unfold State.decodersHeld
  rw [Bool.or_eq_true]

theorem receiveCharacter_of_held {c : Cable} {s : State}
    (h : s.line.tx.isSome = true ∨ s.line.windowHold = true ∨ (s.line.cable c).decoder = .waitRelease) (r : Readings) :
    receiveCharacter c r s = s := by
  unfold receiveCharacter
  refine if_pos ?_
  rw [Bool.or_eq_true, State.decodersHeld_iff, decide_eq_true_eq, or_assoc]
  exact h

theorem receiveCharacter_of_free {c : Cable} {s : State} (htx : s.line.tx = none) (hw : s.line.windowHold = false)
    (hd : (s.line.cable c).decoder = .seeking) (r : Readings) :
    receiveCharacter c r s =
      match judgeReadings r with
      | .falseStart => s
      | .char v parityFault stopFault => setCable c ((s.line.cable c).inTime.received s v parityFault stopFault) s := by
  unfold receiveCharacter
  rw [if_neg]
  · rfl
  · rw [Bool.or_eq_true, State.decodersHeld_iff, decide_eq_true_eq, htx, hw, hd]
    decide

/-- A cable replaced touches its own record of the line alone. -/
theorem setCable_line (c : Cable) (x : CableState) (s : State) :
    setCable c x s = { s with line := (setCable c x s).line } ∧ (setCable c x s).line.handed = s.line.handed ∧
      (setCable c x s).line.tx = s.line.tx ∧ (setCable c x s).line.active = s.line.active ∧
      (setCable c x s).line.check = s.line.check ∧
      (setCable c x s).line.cable (otherCable c) = s.line.cable (otherCable c) := by
  cases c <;> exact ⟨rfl, rfl, rfl, rfl, rfl, rfl⟩

/-- Settles O26, by the findings on the character and the frame under way that it finds. -/
theorem charactersBuildFramesUnlessHeld : Obligations.CharactersBuildFramesUnlessHeld := by
  refine ⟨fun c r s hrun htx hw hd => ⟨_, exec_event (i := .characterComplete c r) rfl hrun, ?_⟩, fun c r s hrun => ?_⟩
  · intro was x edge v parityFault stopFault counted
    have hline : (follow (receiveCharacter c r s)).line = (receiveCharacter c r s).line := follow_line _
    change (_ → (follow (receiveCharacter c r s)).line = _) ∧ (_ → (follow (receiveCharacter c r s)).line.cable _ = _) ∧
      (_ → _ → (_ → _ → _ → (follow (receiveCharacter c r s)).line.cable _ = _) ∧
        (_ → (follow (receiveCharacter c r s)).line.cable _ = _)) ∧
      (∀ _, _ → _ → _ → (follow (receiveCharacter c r s)).line.cable _ = _) ∧
      follow (receiveCharacter c r s) = follow { s with line := (follow (receiveCharacter c r s)).line } ∧
      ((follow (receiveCharacter c r s)).line.handed = _ ∧ (follow (receiveCharacter c r s)).line.tx = _ ∧
        (follow (receiveCharacter c r s)).line.active = _ ∧ (follow (receiveCharacter c r s)).line.check = _)
    rw [hline]
    have hfree := receiveCharacter_of_free htx hw hd r
    cases hr : r.getLsbD 0 with
    | true =>
      rw [judgeReadings_of_released hr] at hfree
      simp only at hfree
      rw [hfree]
      exact ⟨fun _ => rfl, fun h => absurd h (by decide), fun h => absurd h (by decide), fun _ h => absurd h (by decide), rfl, rfl,
        htx, rfl, rfl⟩
    | false =>
      have hx : was.inTime = x := CableState.inTime_eq was
      have hedge : s.timer.before 336 =
          (if edge.1 < 336 then edge.1 + 499664 else edge.1 - 336, if edge.1 < 336 then edge.2 - 1 else edge.2) :=
        RoundTimer.before_start_edge s.timer
      have hjudge : judgeReadings r = .char v parityFault stopFault := judgeReadings_of_driven hr
      have hcable : was.inTime.received s v parityFault stopFault =
          { x with parityCount := counted, decoder := if stopFault then .waitRelease else .seeking
                   assembly := assemble s v parityFault stopFault x.underWay } := by
        rw [hx]
        exact CableState.received_eq x s v parityFault stopFault
      have hcount : parityFault = false → stopFault = false → counted = x.parityCount := by
        intro hp hs
        change (if (parityFault || stopFault) && x.locked then _ else _) = _
        rw [hp, hs]
        rfl
      have hseeks : x.decoder = .seeking := by
        rw [← hx, CableState.inTime_eq]
        split <;> exact hd
      rw [hjudge] at hfree
      simp only at hfree
      rw [show s.line.cable c = was from rfl, hcable] at hfree
      clear_value counted stopFault parityFault v edge x
      obtain ⟨hframe, hhanded, htx', hactive, hcheck, hother⟩ := setCable_line c
        { x with parityCount := counted, decoder := if stopFault then .waitRelease else .seeking
                 assembly := assemble s v parityFault stopFault x.underWay } s
      rw [hfree, cable_setCable_self]
      refine ⟨fun h => absurd h (by decide), fun _ => hother, fun _ hnone => ?_, fun f _ hf hlen => ?_, congrArg follow hframe,
        hhanded, htx'.trans htx, hactive, hcheck⟩
      · rw [CableState.underWay_of_none hnone]
        refine ⟨fun hlead hp hs => ?_, fun hn => ?_⟩
        · rw [hcount hp hs, hp, hs]
          rw [assemble_of_lead hlead, Assembly.begin, hedge, if_neg Bool.false_ne_true, ← hseeks]
        · rw [assemble_of_stray hn, ← hnone]
      · rw [CableState.underWay_eq_some.mpr ⟨hf, hlen⟩]
        rfl
  · refine ⟨fun h => ?_, fun h => ?_, fun htx hw => ?_⟩
    · refine (exec_event (i := .characterComplete c r) rfl hrun).trans (congrArg (fun t => Host.Outcome.next (follow t)) ?_)
      exact receiveCharacter_of_held h r
    · refine (exec_event (i := .decoderInputReleased c) rfl hrun).trans (congrArg (fun t => Host.Outcome.next (follow t)) ?_)
      exact if_pos ((State.decodersHeld_iff s).mpr h)
    · refine (exec_event (i := .decoderInputReleased c) rfl hrun).trans (congrArg (fun t => Host.Outcome.next (follow t)) ?_)
      have hn : ¬ s.decodersHeld = true := by
        rw [State.decodersHeld_iff, htx, hw]
        decide
      exact if_neg hn

end Sys2Proof.Machine
end

section
/-! Realignment: the instants that a move skips, the round end that it carries in, and the hold of a won window (R24, R27 to R29). -/

namespace Sys2Proof.Machine

open Sys2Proof

set_option Elab.async false

/-! ### The round end does not look at what has been taken -/

/-- Other marks of what has been taken in the round, and another announcement handed over. -/
def State.marked (settle window announce : Bool) (handed : Option (List Byte)) (s : State) : State :=
  { s with timer := { s.timer with settleTaken := settle, windowTaken := window, announceTaken := announce }
           line := { s.line with handed := handed } }

/-- A conditional of images is the image of the conditional. -/
theorem ite_eq_map {α β : Type} (f : α → β) {c : Prop} [Decidable c] {a b : α} {x y : β} (hx : x = f a) (hy : y = f b) :
    (if c then x else y) = f (if c then a else b) := by
  rw [hx, hy, apply_ite f]

section
variable (settle window announce : Bool) (handed : Option (List Byte))

theorem endCheck_marked (r : CheckResult) (s : State) :
    endCheck r (s.marked settle window announce handed) = (endCheck r s).marked settle window announce handed := rfl

theorem checkRoundEnd_marked (s : State) :
    checkRoundEnd (s.marked settle window announce handed) = (checkRoundEnd s).marked settle window announce handed := by
  cases hr : s.line.check.running with
  | false => rw [checkRoundEnd_of_stopped hr, checkRoundEnd_of_stopped (s := s.marked settle window announce handed) hr]
  | true =>
    cases ha : s.line.check.armed with
    | false => rw [checkRoundEnd_of_first hr ha, checkRoundEnd_of_first (s := s.marked settle window announce handed) hr ha]; rfl
    | true =>
      rcases Nat.lt_or_ge 1 s.line.check.roundsLeft with hl | hl
      · rw [checkRoundEnd_of_more hr ha hl, checkRoundEnd_of_more (s := s.marked settle window announce handed) hr ha hl]; rfl
      · rw [checkRoundEnd_of_last hr ha hl, checkRoundEnd_of_last (s := s.marked settle window announce handed) hr ha hl]; rfl

theorem setActive_marked (c : Cable) (s : State) :
    setActive c (s.marked settle window announce handed) = (setActive c s).marked settle window announce handed := by
  cases hr : s.line.check.running with
  | false => rw [setActive_of_stopped hr, setActive_of_stopped (s := s.marked settle window announce handed) hr]; rfl
  | true => rw [setActive_of_running hr, setActive_of_running (s := s.marked settle window announce handed) hr]; rfl

theorem marked_cable (c : Cable) (s : State) : (s.marked settle window announce handed).line.cable c = s.line.cable c := by
  cases c <;> rfl

theorem lineRoundEnd_marked (s : State) :
    lineRoundEnd (s.marked settle window announce handed) = (lineRoundEnd s).marked settle window announce handed := by
  unfold lineRoundEnd switchTest
  rw [checkRoundEnd_marked]
  generalize checkRoundEnd s = x
  dsimp only
  change (if _ then State.raise .cableSwitch (setActive _ (x.locksStepped.marked settle window announce handed)) else
    x.locksStepped.marked settle window announce handed) = _
  rw [setActive_marked]
  change (if (!(((x.locksStepped.marked settle window announce handed).line.cable x.line.active).locked) &&
    ((x.locksStepped.marked settle window announce handed).line.cable (otherCable x.line.active)).locked) = true then _ else _) = _
  rw [marked_cable, marked_cable]
  exact ite_eq_map (State.marked settle window announce handed) rfl rfl

theorem tableRoundEnd_marked (s : State) :
    tableRoundEnd (s.marked settle window announce handed) = (tableRoundEnd s).marked settle window announce handed := by
  by_cases h : s.rawAtEnd = s.table.candidate ∧ s.rawAtEnd ≠ s.table.accepted
  · rw [tableRoundEnd_of_accepted h, tableRoundEnd_of_accepted (s := s.marked settle window announce handed) h]
    rfl
  · rw [tableRoundEnd_of_not h, tableRoundEnd_of_not (s := s.marked settle window announce handed) h]
    rfl

theorem superviseFeedback_marked (k : PumpIx) (s : State) :
    superviseFeedback k (s.marked settle window announce handed) = (superviseFeedback k s).marked settle window announce handed := by
  by_cases h : (s.pump k).isRead
  · cases hf : s.inputs.runFb.getLsbD k with
    | true =>
      rw [superviseFeedback_of_seen h hf, superviseFeedback_of_seen (s := s.marked settle window announce handed) h hf]
      rfl
    | false =>
      rw [superviseFeedback_of_missed h hf, superviseFeedback_of_missed (s := s.marked settle window announce handed) h hf]
      exact ite_eq_map (State.marked settle window announce handed) rfl rfl
  · rw [superviseFeedback_of_not h, superviseFeedback_of_not (s := s.marked settle window announce handed) h]

theorem pumpRoundEnd_marked (b : Bool) (k : PumpIx) (s : State) :
    pumpRoundEnd b k (s.marked settle window announce handed) = (pumpRoundEnd b k s).marked settle window announce handed := by
  have hu : urgentStop k (s.marked settle window announce handed) = (urgentStop k s).marked settle window announce handed :=
    ite_eq_map (State.marked settle window announce handed) rfl rfl
  unfold pumpRoundEnd
  rw [superviseFeedback_marked, hu]
  exact ite_eq_map (State.marked settle window announce handed)
    (ite_eq_map (State.marked settle window announce handed) rfl rfl) rfl

theorem pumpsRoundEnd_marked (b : Bool) (s : State) :
    pumpsRoundEnd b (s.marked settle window announce handed) = (pumpsRoundEnd b s).marked settle window announce handed := by
  have h (l : List PumpIx) : ∀ x : State, l.foldl (fun s k => pumpRoundEnd b k s) (x.marked settle window announce handed) =
      (l.foldl (fun s k => pumpRoundEnd b k s) x).marked settle window announce handed := by
    induction l with
    | nil => exact fun _ => rfl
    | cons k l ih =>
      intro x
      rw [List.foldl_cons, List.foldl_cons, pumpRoundEnd_marked, ih]
  exact h pumpList s

theorem syncSampling_marked (s : State) :
    syncSampling (s.marked settle window announce handed) = (syncSampling s).marked settle window announce handed := by
  have hw : (s.marked settle window announce handed).wantsContinuous = s.wantsContinuous := rfl
  have hs : (s.marked settle window announce handed).gauge = s.gauge := rfl
  unfold syncSampling
  rw [hw, hs]
  cases s.gauge.sampling <;> cases s.wantsContinuous <;> rfl

theorem gaugeRoundEnd_marked (s : State) :
    gaugeRoundEnd (s.marked settle window announce handed) = (gaugeRoundEnd s).marked settle window announce handed := by
  have hs : (s.marked settle window announce handed).gauge = s.gauge := rfl
  unfold gaugeRoundEnd
  rw [syncSampling_marked, hs]
  cases s.gauge.sampling with
  | periodic =>
    dsimp only
    rw [← syncSampling_marked]
    exact congrArg syncSampling (ite_eq_map (State.marked settle window announce handed) rfl rfl)
  | continuous =>
    dsimp only
    generalize syncSampling s = x
    have hx : (x.marked settle window announce handed).gauge = x.gauge := rfl
    rw [hx]
    cases x.gauge.sampling <;> rfl

theorem setMode_marked (m : Mode) (s : State) :
    setMode m (s.marked settle window announce handed) = (setMode m s).marked settle window announce handed := by
  exact ite_eq_map (State.marked settle window announce handed) rfl rfl

theorem countsRoundEnd_marked (s : State) :
    countsRoundEnd (s.marked settle window announce handed) = (countsRoundEnd s).marked settle window announce handed := by
  have hmode (m : Mode) {x y : State} (h : y = x.marked settle window announce handed) :
      setMode m y = (setMode m x).marked settle window announce handed := by
    rw [h]
    exact setMode_marked settle window announce handed m x
  have hs : (s.marked settle window announce handed).timer.mode = s.timer.mode := rfl
  unfold countsRoundEnd
  extract_lets
  rw [hs]
  cases s.timer.mode with
  | silent => rfl
  | isolated => rfl
  | member => exact ite_eq_map (State.marked settle window announce handed) (hmode _ rfl) rfl
  | joining =>
    exact ite_eq_map (State.marked settle window announce handed) (hmode _ rfl)
      (ite_eq_map (State.marked settle window announce handed) (hmode _ rfl) rfl)

/-- The round end begins the round with nothing taken, whatever had been taken before (R24). -/
theorem timerRoundEnd_marked (s : State) :
    timerRoundEnd (s.marked settle window announce handed) =
      { timerRoundEnd s with line := { (timerRoundEnd s).line with handed := handed } } := by
  unfold timerRoundEnd
  rw [countsRoundEnd_marked]
  rfl

theorem gaugeStage_marked (s : State) :
    gaugeStage (s.marked settle window announce handed) = (gaugeStage s).marked settle window announce handed := by
  have htable : tableStage (s.marked settle window announce handed) = (tableStage s).marked settle window announce handed := by
    unfold tableStage
    rw [lineRoundEnd_marked, tableRoundEnd_marked]
  have hstop : stopAtEnd (s.marked settle window announce handed) = stopAtEnd s := by
    unfold stopAtEnd
    rw [htable, lineRoundEnd_marked]
    rfl
  unfold gaugeStage pumpStage
  rw [htable, hstop, pumpsRoundEnd_marked, gaugeRoundEnd_marked]

theorem roundEndWork_eq (s : State) :
    roundEndWork s = { timerRoundEnd (gaugeStage s) with free := (timerRoundEnd (gaugeStage s)).free + 1 } := rfl

theorem roundEndWork_marked (s : State) :
    roundEndWork (s.marked settle window announce handed) =
      { roundEndWork s with line := { (roundEndWork s).line with handed := handed } } := by
  rw [roundEndWork_eq, roundEndWork_eq, gaugeStage_marked, timerRoundEnd_marked]

end

/-! ### The instants that a move skips -/

theorem skipInstants_eq (lo hi : Nat) (s : State) :
    skipInstants lo hi s =
      s.marked (s.timer.settleTaken || decide (lo ≤ 448000 ∧ 448000 < hi)) (s.timer.windowTaken || decide (lo ≤ 448000 ∧ 448000 < hi))
        (s.timer.announceTaken || decide (lo ≤ 28000 * s.own.val + 1000 ∧ 28000 * s.own.val + 1000 < hi))
        (if lo ≤ 28000 * s.own.val + 1000 ∧ 28000 * s.own.val + 1000 < hi then none else s.line.handed) := by
  unfold skipInstants State.marked
  generalize 28000 * s.own.val + 1000 = own
  dsimp only
  by_cases h₁ : lo ≤ 448000 ∧ 448000 < hi
  · rw [if_pos h₁, decide_eq_true h₁, Bool.or_true, Bool.or_true]
    by_cases h₂ : lo ≤ own ∧ own < hi
    · rw [if_pos h₂, if_pos h₂, decide_eq_true h₂, Bool.or_true]
    · rw [if_neg h₂, if_neg h₂, decide_eq_false h₂, Bool.or_false]
  · rw [if_neg h₁, decide_eq_false h₁, Bool.or_false, Bool.or_false]
    by_cases h₂ : lo ≤ own ∧ own < hi
    · rw [if_pos h₂, if_pos h₂, decide_eq_true h₂, Bool.or_true]
    · rw [if_neg h₂, if_neg h₂, decide_eq_false h₂, Bool.or_false]

/-! ### Realignment -/

/-- The changes of phase and of count that a realignment counts (R28). -/
def realignGain (move : Nat) (same : Prop) [Decidable same] (n : Word16) : Word16 :=
  n + (if 2000 < min move (500000 - move) then 1 else 0) + (if same then 0 else 1)

/-- The schedule that a realignment puts in the place of the one it found (R27, R28, R30). -/
def State.rescheduled (k : Station) (count : Word16) (age : Nat) (old : RoundTimer) (s : State) : State :=
  { s with timer := { s.timer with
      phase := alignedPhase k age, count := count
      realignCount := realignGain (forwardMove old.phase (alignedPhase k age)) (s.timer.count = count) s.timer.realignCount
      replaced := s.timer.replaced ++ [⟨old.phase, old.count, 0⟩] } }

/-- A backward move leaves what it passes. -/
theorem realign_of_backward {k : Station} {age : Nat} {s : State} (h : ¬ forwardMove s.timer.phase (alignedPhase k age) ≤ 250000)
    (count : Word16) : realign k count age s = s.rescheduled k count age s.timer := by
  unfold realign
  dsimp only
  rw [if_neg h]
  rfl

/-- A forward move within the round skips the instants that it passes. -/
theorem realign_of_forward {k : Station} {age : Nat} {s : State} (h : forwardMove s.timer.phase (alignedPhase k age) ≤ 250000)
    (hn : ¬ 500000 ≤ s.timer.phase + forwardMove s.timer.phase (alignedPhase k age)) (count : Word16) :
    realign k count age s = (skipInstants s.timer.phase (alignedPhase k age) s).rescheduled k count age s.timer := by
  unfold realign
  dsimp only
  rw [if_pos h, if_neg hn]
  rfl

/-- A forward move over the round end takes it, and skips what lies on either side of it. -/
theorem realign_of_carrying {k : Station} {age : Nat} {s : State} (h : forwardMove s.timer.phase (alignedPhase k age) ≤ 250000)
    (hc : 500000 ≤ s.timer.phase + forwardMove s.timer.phase (alignedPhase k age)) (count : Word16) :
    realign k count age s =
      (skipInstants 0 (alignedPhase k age) (roundEndWork (skipInstants s.timer.phase 500000 s))).rescheduled k count age s.timer := by
  unfold realign
  dsimp only
  rw [if_pos h, if_pos hc]
  rfl

end Sys2Proof.Machine
end

section
/-! What a realignment makes of a state, and when it is made (R24, R27 to R31). -/

namespace Sys2Proof.Machine

open Sys2Proof

set_option Elab.async false

/-- The instant is passed by a move of at most 250 ms forward (R28). -/
def passed (move old new instant : Nat) : Bool := decide (move ≤ 250000 ∧ old ≤ instant ∧ instant < new)

/-- A realignment that takes no round end (R27, R28). -/
theorem realign_of_not_carrying {k : Station} {age : Nat} {s : State}
    (h : ¬ (forwardMove s.timer.phase (alignedPhase k age) ≤ 250000 ∧
      500000 ≤ s.timer.phase + forwardMove s.timer.phase (alignedPhase k age))) (count : Word16) :
    realign k count age s =
      let passes := passed (forwardMove s.timer.phase (alignedPhase k age)) s.timer.phase (alignedPhase k age)
      (s.marked (s.timer.settleTaken || passes 448000) (s.timer.windowTaken || passes 448000)
        (s.timer.announceTaken || passes (28000 * s.own.val + 1000))
        (if passes (28000 * s.own.val + 1000) then none else s.line.handed)).rescheduled k count age s.timer := by
  by_cases hm : forwardMove s.timer.phase (alignedPhase k age) ≤ 250000
  · rw [realign_of_forward hm (fun hc => h ⟨hm, hc⟩), skipInstants_eq]
    unfold passed
    simp only [hm, true_and, decide_eq_true_eq]
  · rw [realign_of_backward hm]
    unfold passed
    simp only [hm, false_and, decide_false, Bool.or_false, Bool.false_eq_true, if_false]
    rfl

/-- What the round end's work leaves for the skipping of instants (R24). -/
theorem roundEndWork_frame (s : State) :
    (roundEndWork s).timer.settleTaken = false ∧ (roundEndWork s).timer.windowTaken = false ∧
      (roundEndWork s).timer.announceTaken = false ∧ (roundEndWork s).timer.count = s.timer.count + 1 ∧
      (roundEndWork s).timer.realignCount = s.timer.realignCount ∧ (roundEndWork s).timer.replaced = s.timer.replaced ∧
      (roundEndWork s).own = s.own ∧ (roundEndWork s).arb = s.arb := by
  obtain ⟨hcount, hrealign, _, hreplaced, _⟩ := countsRoundEnd_marks (gaugeStage s)
  obtain ⟨_, hstraps, _, harb, _, _, _⟩ := takeRoundEnd_frame s
  have htimer : (gaugeStage s).timer = s.timer := (gaugeStage_frame s).1
  rw [htimer] at hcount hrealign hreplaced
  refine ⟨rfl, rfl, rfl, ?_, ?_, ?_, congrArg StrapLevels.station hstraps, harb⟩
  · exact congrArg (· + 1) hcount
  · exact hrealign
  · exact hreplaced

/-- What is dropped on one side or the other is dropped. -/
theorem ite_ite_none {α : Type} (p q : Prop) [Decidable p] [Decidable q] (x : Option α) :
    (if q then none else if p then none else x) = if p ∨ q then none else x := by
  by_cases hq : q
  · rw [if_pos hq, if_pos (.inr hq)]
  · by_cases hp : p
    · rw [if_neg hq, if_pos hp, if_pos (.inl hp)]
    · rw [if_neg hq, if_neg hp, if_neg (fun h => h.elim hp hq)]

/-- A realignment that takes the round end (R24, R27, R28). -/
theorem realign_of_carrying_eq {k : Station} {age : Nat} {s : State}
    (h : forwardMove s.timer.phase (alignedPhase k age) ≤ 250000)
    (hc : 500000 ≤ s.timer.phase + forwardMove s.timer.phase (alignedPhase k age)) (count : Word16) :
    realign k count age s =
      let own := 28000 * s.own.val + 1000
      let new := alignedPhase k age
      { (roundEndWork s).marked (decide (448000 < new)) (decide (448000 < new)) (decide (own < new))
          (if s.timer.phase ≤ own ∧ own < 500000 ∨ own < new then none else s.line.handed) with
        timer := { (roundEndWork s).timer with
          phase := new, count := count
          realignCount := realignGain (forwardMove s.timer.phase new) (s.timer.count + 1 = count) s.timer.realignCount
          settleTaken := decide (448000 < new), windowTaken := decide (448000 < new), announceTaken := decide (own < new)
          replaced := s.timer.replaced ++ [⟨s.timer.phase, s.timer.count, 0⟩] } } := by
  obtain ⟨hsettle, hwindow, hannounce, hcount, hrealign, hreplaced, hown, _⟩ := roundEndWork_frame s
  rw [realign_of_carrying h hc, skipInstants_eq s.timer.phase, roundEndWork_marked, skipInstants_eq]
  have hown' (l : Line) : ({ roundEndWork s with line := l } : State).own = s.own := hown
  dsimp only
  rw [hown', hsettle, hwindow, hannounce]
  unfold State.rescheduled State.marked
  simp only [Nat.zero_le, true_and, Bool.false_or]
  rw [hcount, hrealign, hreplaced, ite_ite_none]

theorem realignOrHold_of_holding {s : State} {w : Window} (hw : s.arb.window = some w) (h : w.holding = true) (k : Station)
    (count : Word16) (age : Nat) :
    realignOrHold k count age s =
      { s with timer := { s.timer with held := some { sender := k, frameCount := count, edgeAge := age } } } := by
  unfold realignOrHold
  simp only [hw]
  exact if_pos h

theorem realignOrHold_of_free {s : State} (h : ∀ w, s.arb.window = some w → w.holding = false) (k : Station)
    (count : Word16) (age : Nat) : realignOrHold k count age s = realign k count age s := by
  unfold realignOrHold
  cases hw : s.arb.window with
  | none => rfl
  | some w => exact if_neg (by rw [h w hw]; decide)

theorem releaseRealignment_of_some {s : State} {h : HeldRealignment} (hh : s.timer.held = some h) :
    releaseRealignment s =
      let u := realign h.sender h.frameCount h.edgeAge
        { s with arb := { s.arb with window := s.arb.window.map (fun w => { w with holding := false }) }
                 timer := { s.timer with held := none } }
      { u with timer := { u.timer with roundMarked := true } } := by
  unfold releaseRealignment
  simp only [hh]

/-- Settles O30, by the three kinds of move and the hold of a won window. -/
theorem realignmentSkipsForwardAndLeavesBackward : Obligations.RealignmentSkipsForwardAndLeavesBackward := by
  intro k count age s phase move passes own replaced
  refine ⟨fun h => ?_, fun w hw hh => realignOrHold_of_holding hw hh k count age, fun h => realignOrHold_of_free h k count age,
    fun hrun hm hc => ⟨_, exec_roundEnd hrun s.inputs, ?_⟩, fun hn => releaseRealignment_of_none hn,
    fun h hh => ⟨_, rfl, releaseRealignment_of_some hh⟩⟩
  · exact realign_of_not_carrying h count
  · have hgauge : (roundEnded s.inputs s).gauge = (roundEndWork s).gauge :=
      (roundEnded_gauge s.inputs s).trans (takeRoundEnd_pumps s).2.2.2.symm
    have hfollow : roundEnded s.inputs s =
        { takeRoundEnd s with arb := (roundEnded s.inputs s).arb, gauge := (roundEndWork s).gauge } := by
      rw [← hgauge]
      exact follow_frame (takeRoundEnd s)
    rw [hfollow]
    have harb : (roundEndWork s).arb = s.arb := (roundEndWork_frame s).2.2.2.2.2.2.2
    rw [realign_of_carrying_eq hm hc, ← harb]
    rfl

end Sys2Proof.Machine
end

section
/-! The arrival of a frame, and the events of the cable check (R6, R142, R143, R145, R146, R154, R155). -/

namespace Sys2Proof.Machine

open Sys2Proof

set_option Elab.async false

/-! ### The judgement of a complete frame -/

/-- The complete frame of a cable is taken off it. -/
def State.cleared (c : Cable) (s : State) : State := setCable c { s.line.cable c with assembly := none } s

@[simp] theorem setCable_setCable (c : Cable) (x y : CableState) (s : State) : setCable c x (setCable c y s) = setCable c x s := by
  cases c <;> rfl

theorem State.cleared_cable (c : Cable) (s : State) : (s.cleared c).line.cable c = { s.line.cable c with assembly := none } :=
  cable_setCable_self c _ s

theorem State.cleared_line (c : Cable) (s : State) :
    (s.cleared c).line.active = s.line.active ∧ (s.cleared c).line.check = s.line.check := by
  obtain ⟨_, _, _, hactive, hcheck, _⟩ := setCable_line c { s.line.cable c with assembly := none } s
  exact ⟨hactive, hcheck⟩

theorem exec_frameArrival {s : State} (hrun : s.cond = .running) (c : Cable) (inp : Inputs) :
    exec (.frameArrival c inp) s = .next (follow (arriveFrame c { s with inputs := inp })) :=
  exec_event (i := .frameArrival c inp) rfl hrun

theorem arriveFrame_of_complete {s : State} {c : Cable} {f : Assembly} (hf : (s.line.cable c).assembly = some f)
    (hlen : f.kind.length ≤ f.chars.length) : arriveFrame c s = judgeFrame c f (s.cleared c) := by
  unfold arriveFrame
  simp only [hf]
  exact if_pos (decide_eq_true hlen)

theorem judgeFrame_of_void {f : Assembly} (h : f.void = true) (c : Cable) (s : State) :
    judgeFrame c f s = failedArrival c s := if_pos h

theorem judgeFrame_of_bad {f : Assembly} (h : f.void = false) (hc : frameCheckOk f.kind f.chars = false) (c : Cable) (s : State) :
    judgeFrame c f s = failedArrival c (setCable c (s.line.cable c).countCheck s) := by
  unfold judgeFrame
  rw [if_neg (by rw [h]; decide), if_neg (by rw [hc]; decide)]

theorem judgeFrame_of_valid {f : Assembly} (h : f.void = false) (hc : frameCheckOk f.kind f.chars = true) (c : Cable) (s : State) :
    judgeFrame c f s = validArrival c f s := by
  unfold judgeFrame
  rw [if_neg (by rw [h]; decide), if_pos hc]

theorem failedArrival_of_active {s : State} {c : Cable} (h : s.line.active = c) : failedArrival c s = s := if_pos h

theorem failedArrival_of_standby {s : State} {c : Cable} (h : s.line.active ≠ c) : failedArrival c s = checkStandbyFrame none s :=
  if_neg h

theorem checkStandbyFrame_of_stopped {s : State} (h : s.line.check.running = false) (frame : Option (List Byte)) :
    checkStandbyFrame frame s = s := by
  rw [checkStandbyFrame_eq, CableCheck.afterStandby_of_stopped h]

theorem failedArrival_of_stopped {s : State} (h : s.line.check.running = false) (c : Cable) : failedArrival c s = s := by
  by_cases ha : s.line.active = c
  · exact failedArrival_of_active ha
  · rw [failedArrival_of_standby ha, checkStandbyFrame_of_stopped h]

/-- A valid frame of the standby cable marks its cable's round and goes to the check alone. -/
theorem validArrival_of_standby {s : State} {c : Cable} (h : s.line.active ≠ c) (f : Assembly) :
    validArrival c f s = checkStandbyFrame (some f.chars) (setCable c { s.line.cable c with frameMark := true } s) := by
  unfold validArrival
  simp only [h, decide_false]
  rfl

/-- A valid frame of the active cable is offered, marks its cable's round and goes to the check. -/
theorem validArrival_of_active {s : State} {c : Cable} (h : s.line.active = c) (f : Assembly) :
    validArrival c f s =
      setCable c { (offerFrame f s).line.cable c with frameMark := true }
        { offerFrame f s with line := { (offerFrame f s).line with check := (offerFrame f s).line.check.afterActive f.chars } } := by
  unfold validArrival
  simp only [h, decide_true, if_true]
  rw [checkActiveFrame_eq]
  cases c <;> rfl

/-- The count of a check failure on a cable whose frame has been taken off. -/
theorem CableState.countCheck_eq (x : CableState) :
    x.countCheck = { x with checkCount := if x.locked then min 255 (x.checkCount + 1) else x.checkCount } := by
  unfold CableState.countCheck satAdd
  split <;> rfl

/-- Settles O27, by the three judgements of a complete frame. -/
theorem onlyValidFramesOfTheActiveCableAreOffered : Obligations.OnlyValidFramesOfTheActiveCableAreOffered := by
  intro c inp s f hrun hstop hf hlen
  have hx := arriveFrame_of_complete (s := { s with inputs := inp }) hf hlen
  have he := exec_frameArrival hrun c inp
  obtain ⟨hactive, hcheck⟩ := State.cleared_line c { s with inputs := inp }
  have hcable := State.cleared_cable c { s with inputs := inp }
  have hstopped : (State.cleared c { s with inputs := inp }).line.check.running = false := by
    rw [hcheck]
    exact hstop
  have hstopped' (x : CableState) :
      (setCable c x (State.cleared c { s with inputs := inp })).line.check.running = false := by
    obtain ⟨_, _, _, _, h, _⟩ := setCable_line c x (State.cleared c { s with inputs := inp })
    rw [h]
    exact hstopped
  refine ⟨fun hv => ?_, fun hv hc => ?_, fun hv hc hn => ?_⟩
  · rw [he, hx, judgeFrame_of_void hv, failedArrival_of_stopped hstopped]
    rfl
  · rw [he, hx, judgeFrame_of_bad hv hc, failedArrival_of_stopped (hstopped' _), hcable, CableState.countCheck_eq]
    exact congrArg (fun t => Host.Outcome.next (follow t)) (setCable_setCable c _ _ _)
  · rw [he, hx, judgeFrame_of_valid hv hc, validArrival_of_standby (by rw [hactive]; exact hn),
      checkStandbyFrame_of_stopped (hstopped' _), hcable]
    exact congrArg (fun t => Host.Outcome.next (follow t)) (setCable_setCable c _ _ _)

/-! ### Truncation, the timeout of a comparison and the end of the pulse -/

/-- Settles O34, by the frame under way and the first open comparison. -/
theorem truncationTimeoutAndPulseEndActOnTheLine : Obligations.TruncationTimeoutAndPulseEndActOnTheLine := by
  intro s hrun
  refine ⟨fun c f hf hlen => ?_, fun c h => ?_, fun h => ?_, fun o rest h => ?_, exec_event (i := .checkPulseEnd) rfl hrun⟩
  · refine (exec_event (i := .frameTruncated c) rfl hrun).trans (congrArg (fun t => Host.Outcome.next (follow t)) ?_)
    change setCable c (s.line.cable c).truncated s = _
    rw [CableState.truncated_of_some (CableState.underWay_eq_some.mpr ⟨hf, hlen⟩)]
  · have hnone : (s.line.cable c).underWay = none := by
      rw [Option.eq_none_iff_forall_ne_some]
      intro f hf
      obtain ⟨hf, hlen⟩ := CableState.underWay_eq_some.mp hf
      exact absurd (h f hf) (by omega)
    refine (exec_event (i := .frameTruncated c) rfl hrun).trans (congrArg (fun t => Host.Outcome.next (follow t)) ?_)
    change setCable c (s.line.cable c).truncated s = s
    rw [CableState.truncated_of_none hnone, setCable_cable]
  · refine (exec_event (i := .checkComparisonTimeout) rfl hrun).trans (congrArg (fun t => Host.Outcome.next (follow t)) ?_)
    change timeOutComparison s = s
    unfold timeOutComparison
    rw [h]
  · refine (exec_event (i := .checkComparisonTimeout) rfl hrun).trans (congrArg (fun t => Host.Outcome.next (follow t)) ?_)
    change timeOutComparison s = _
    unfold timeOutComparison
    rw [h]

end Sys2Proof.Machine
end

section
/-! What an announcement says (R7, R176), and which announcements are out of step (R30). -/

namespace Sys2Proof.Machine

open Sys2Proof

set_option Elab.async false

/-! ### The readings of R7 -/

/-- The number of character `n`, counted from 0. -/
def charAt (cs : List Byte) (n : Nat) : Nat := (cs.getD n 0).toNat

/-- The mode that the code in character 2 announces. -/
def announcesMode (cs : List Byte) (m : Mode) : Prop :=
  charAt cs 1 / 16 % 4 = 0 ∧ m = .joining ∨ charAt cs 1 / 16 % 4 = 1 ∧ m = .member ∨ charAt cs 1 / 16 % 4 = 2 ∧ m = .isolated

/-- The round count announced. -/
def announcedCount (cs : List Byte) : Word16 := BitVec.ofNat 16 (256 * charAt cs 2 + charAt cs 3)

/-- The entry that an accepted announcement makes (R7, R8). -/
def announcedEntry (cs : List Byte) (m : Mode) : Entry :=
  { status := .fresh, age := 0
    fields := some
      { mode := m, polderClass := if h : charAt cs 4 % 16 < 8 then some ⟨charAt cs 4 % 16, h⟩ else none
        flood := decide (128 ≤ charAt cs 4), demand := min 63 (charAt cs 5), committed := min 63 (charAt cs 6)
        island := min 7 (charAt cs 7), offer := if charAt cs 8 ≤ 62 then some (charAt cs 8) else none
        flags := BitVec.ofNat 4 (charAt cs 9), summary := cs.getD 10 0 }
    startSeen := none, lastCount := some (announcedCount cs) }

theorem extract_low_nibble (c : Byte) : (c.extractLsb' 0 4).toNat = c.toNat % 16 := by
  rw [BitVec.extractLsb'_toNat, Nat.shiftRight_zero]

theorem extract_mode_code (c : Byte) : (c.extractLsb' 4 2).toNat = c.toNat / 16 % 4 := by
  rw [BitVec.extractLsb'_toNat, Nat.shiftRight_eq_div_pow]

theorem parseAnnouncement_station {cs : List Byte} {k : Station} (h : charAt cs 1 % 16 = k.val) :
    (parseAnnouncement cs).station = k := by
  refine Fin.ext ?_
  change ((cs.getD 1 0).extractLsb' 0 4).toNat % 16 = k.val
  rw [extract_low_nibble, Nat.mod_mod]
  exact h

theorem parseAnnouncement_mode {cs : List Byte} {m : Mode} (h : announcesMode cs m) : (parseAnnouncement cs).mode = some m := by
  change modeOfCode ((cs.getD 1 0).extractLsb' 4 2) = some m
  unfold modeOfCode
  rw [extract_mode_code]
  rcases h with ⟨h, rfl⟩ | ⟨h, rfl⟩ | ⟨h, rfl⟩
  all_goals
    rw [show (cs.getD 1 0).toNat / 16 % 4 = _ from h]
    rfl

theorem parseAnnouncement_mode_of_three {cs : List Byte} (h : charAt cs 1 / 16 % 4 = 3) : (parseAnnouncement cs).mode = none := by
  change modeOfCode ((cs.getD 1 0).extractLsb' 4 2) = none
  unfold modeOfCode
  rw [extract_mode_code, show (cs.getD 1 0).toNat / 16 % 4 = 3 from h]
  rfl

theorem parseAnnouncement_count (cs : List Byte) : (parseAnnouncement cs).count = announcedCount cs := by
  refine BitVec.eq_of_toNat_eq ?_
  change (charsWord16 (cs.getD 2 0) (cs.getD 3 0)).toNat = _
  have h2 : charAt cs 2 < 256 := (cs.getD 2 0).isLt
  have h3 : charAt cs 3 < 256 := (cs.getD 3 0).isLt
  rw [charsWord16_toNat, announcedCount, BitVec.toNat_ofNat, Nat.mod_eq_of_lt (by omega)]
  rfl

theorem classOfCode_low_nibble (c : Byte) :
    classOfCode (c.extractLsb' 0 4) = if h : c.toNat % 16 < 8 then some ⟨c.toNat % 16, h⟩ else none := by
  unfold classOfCode
  rw [extract_low_nibble]
  by_cases h : c.toNat % 16 < 8
  · rw [if_pos (by omega), dif_pos h]
    exact congrArg some (Fin.ext (Nat.mod_eq_of_lt h))
  · rw [if_neg (by omega), dif_neg h]

theorem getLsbD_seven (c : Byte) : c.getLsbD 7 = decide (128 ≤ c.toNat) := by
  have hc : c.toNat < 256 := c.isLt
  rw [← BitVec.testBit_toNat, Nat.testBit_eq_decide_div_mod_eq]
  exact decide_eq_decide.mpr (by omega)

theorem parseAnnouncement_fields {cs : List Byte} {m : Mode} (h : announcesMode cs m) :
    some (parseAnnouncement cs).fields = (announcedEntry cs m).fields := by
  have hm : modeOfCode ((cs.getD 1 0).extractLsb' 4 2) = some m := parseAnnouncement_mode h
  have hflags : (cs.getD 9 0).extractLsb' 0 4 = BitVec.ofNat 4 (charAt cs 9) := by
    refine BitVec.eq_of_toNat_eq ?_
    rw [extract_low_nibble, BitVec.toNat_ofNat]
    rfl
  unfold parseAnnouncement
  dsimp only
  rw [hm, hflags, classOfCode_low_nibble, getLsbD_seven]
  rfl

/-- What the table makes of an announcement (R8). -/
theorem applyAnnouncement_eq {cs : List Byte} {k : Station} {m : Mode} (hk : charAt cs 1 % 16 = k.val) (hm : announcesMode cs m)
    (s : State) : applyAnnouncement (parseAnnouncement cs) s = s.setEntry k (announcedEntry cs m) := by
  unfold applyAnnouncement
  rw [parseAnnouncement_station hk, parseAnnouncement_count, parseAnnouncement_fields hm]
  rfl

/-! ### Announcements in step -/

/-- How far the own phase at the first start edge lies after the place of station `k` (R30). -/
def lateBy (phase : Nat) (k : Station) : Nat := (phase + 500000 - (28000 * k.val + 1000)) % 500000

theorem phaseDistance_gt_iff (phase : Nat) (k : Station) :
    6000 < phaseDistance phase (28000 * k.val + 1000) ↔ 6000 < lateBy phase k ∧ lateBy phase k < 494000 := by
  have hk : k.val < 16 := k.isLt
  unfold phaseDistance forwardMove lateBy
  omega

/-- A station is exempt from the test of R30: it is the timing reference, or lower-numbered than it and settled. -/
def State.exempts (s : State) (k : Station) (m : Option Mode) : Prop :=
  s.timer.reference = some k ∨ ∃ r, s.timer.reference = some r ∧ k < r ∧ (m = some .member ∨ m = some .isolated)

theorem State.outOfStep_iff (s : State) (a : Announcement) (phase : Nat) (count : Word16) :
    s.outOfStep a phase count = true ↔
      s.timer.mode = .member ∧ ¬ s.exempts a.station a.mode ∧
        (a.count ≠ count ∨ (6000 < lateBy phase a.station ∧ lateBy phase a.station < 494000)) := by
  have hiff := phaseDistance_gt_iff phase a.station
  unfold State.outOfStep State.exempts
  generalize phaseDistance phase (28000 * a.station.val + 1000) = d at hiff ⊢
  rw [← hiff]
  cases s.timer.reference with
  | none => simp
  | some r =>
    have hcomm : r = a.station ↔ a.station = r := eq_comm
    cases a.mode with
    | none => simp [hcomm, and_assoc]
    | some m => cases m <;> simp [Mode.settled, hcomm, and_assoc]

end Sys2Proof.Machine
end

section
/-! Valid frames of the active cable: those that are refused (R7, R9, R30, R35, R39, R78), and the check's part in the arrival of every
frame (R154). -/

namespace Sys2Proof.Machine

open Sys2Proof

set_option Elab.async false

/-- The modes MEMBER and ISOLATED are those of the codes 1 and 2 (R176). -/
theorem parseAnnouncement_settled {cs : List Byte}
    (h : (parseAnnouncement cs).mode = some .member ∨ (parseAnnouncement cs).mode = some .isolated) :
    charAt cs 1 / 16 % 4 = 1 ∨ charAt cs 1 / 16 % 4 = 2 := by
  by_contra hn
  rcases (show charAt cs 1 / 16 % 4 = 0 ∨ charAt cs 1 / 16 % 4 = 3 by omega) with h0 | h3
  · rw [parseAnnouncement_mode (m := .joining) (.inl ⟨h0, rfl⟩)] at h
    exact absurd h (by decide)
  · rw [parseAnnouncement_mode_of_three h3] at h
    exact absurd h (by decide)

/-! ### A frame of the active cable -/

/-- A frame offered marks the round of its cable and goes to the check (R146, R154). -/
def State.arrived (c : Cable) (cs : List Byte) (o : State) : State :=
  setCable c { o.line.cable c with frameMark := true } { o with line := { o.line with check := o.line.check.afterActive cs } }

theorem arriveFrame_of_active {s : State} {c : Cable} {f : Assembly} (ha : s.line.active = c)
    (hf : (s.line.cable c).assembly = some f) (hlen : f.kind.length ≤ f.chars.length) (hv : f.void = false)
    (hc : frameCheckOk f.kind f.chars = true) : arriveFrame c s = (offerFrame f (s.cleared c)).arrived c f.chars := by
  have hactive : (s.cleared c).line.active = c := (State.cleared_line c s).1.trans ha
  rw [arriveFrame_of_complete hf hlen, judgeFrame_of_valid hv hc, validArrival_of_active hactive]
  rfl

/-- A frame offered in vain leaves the cable's mark and the check's part. -/
theorem State.cleared_arrived (c : Cable) (cs : List Byte) (s : State) :
    (s.cleared c).arrived c cs =
      setCable c { s.line.cable c with assembly := none, frameMark := true }
        { s with line := { s.line with check := s.line.check.afterActive cs } } := by
  cases c <;> rfl

/-- The reference of an arrived state is chosen where that of the state before it was. -/
theorem State.arrived_referenceChosen {o : State} (h : o.referenceChosen) (c : Cable) (cs : List Byte) :
    (o.arrived c cs).referenceChosen := by
  cases c <;> exact h

theorem State.cleared_frame (c : Cable) (s : State) : s.cleared c = { s with line := (s.cleared c).line } :=
  (setCable_line c _ s).1

theorem offerFrame_announcement {f : Assembly} (h : f.kind = .announcement) (s : State) :
    offerFrame f s = offerAnnouncement f s := by
  unfold offerFrame
  rw [h]

theorem offerFrame_confirmation {f : Assembly} (h : f.kind = .confirmation) (s : State) :
    offerFrame f s = offerConfirmation f s := by
  unfold offerFrame
  rw [h]

theorem duplicateHeard_of_not_joining {s : State} (h : s.timer.mode ≠ .joining) : duplicateHeard s = s := if_neg h

/-- A station that hears its own number is SILENT and has nothing to send (R35, R39, R78). -/
def State.silenced (s : State) : State :=
  chooseReference (State.raise .modeChange
    { s with timer := { s.timer with mode := .silent }
             arb := { s.arb with pendingStart := if s.arb.part = .won then none else s.arb.pendingStart }
             line := { s.line with handed := none, tx := none } })

theorem duplicateHeard_of_joining {s : State} (h : s.timer.mode = .joining) : duplicateHeard s = s.silenced := by
  unfold duplicateHeard
  rw [if_pos h, goSilent_of_not (by rw [h]; decide)]
  rfl

/-- A state that a station with a number heard twice leaves, with the frame's part (R35, R39, R78). -/
theorem duplicateHeard_arrived {s : State} (h : s.timer.mode = .joining) (c : Cable) (cs : List Byte) :
    ∃ r, ∃ t : State,
      t = setCable c { s.line.cable c with assembly := none, frameMark := true }
        { s with timer := { s.timer with mode := .silent, reference := r }
                 arb := { s.arb with pendingStart := if s.arb.part = .won then none else s.arb.pendingStart }
                 line := { s.line with handed := none, tx := none, check := s.line.check.afterActive cs }
                 port := { s.port with flags := s.port.flags ||| 0b100000 } } ∧
      t.referenceChosen ∧ (duplicateHeard (s.cleared c)).arrived c cs = t := by
  have hj : (s.cleared c).timer.mode = .joining := by
    rw [State.cleared_frame]
    exact h
  refine ⟨(s.cleared c).silenced.timer.reference, (s.cleared c).silenced.arrived c cs, ?_,
    State.arrived_referenceChosen (chooseReference_chosen _) c cs, by rw [duplicateHeard_of_joining hj]⟩
  have h : (s.cleared c).silenced =
      { s.cleared c with
        timer := { s.timer with mode := .silent, reference := (s.cleared c).silenced.timer.reference }
        arb := { s.arb with pendingStart := if s.arb.part = .won then none else s.arb.pendingStart }
        line := { (s.cleared c).line with handed := none, tx := none }
        port := { s.port with flags := s.port.flags ||| 0b100000 } } := by
    rw [State.cleared_frame]
    rfl
  generalize (s.cleared c).silenced.timer.reference = q at h ⊢
  rw [h]
  cases c <;> rfl

theorem offerAnnouncement_of_own {f : Assembly} {s : State} (h : (parseAnnouncement f.chars).station = s.own) :
    offerAnnouncement f s = duplicateHeard s := if_pos h

theorem offerAnnouncement_of_no_mode {f : Assembly} {s : State} (hn : (parseAnnouncement f.chars).station ≠ s.own)
    (h : (parseAnnouncement f.chars).mode = none) : offerAnnouncement f s = s := by
  unfold offerAnnouncement
  dsimp only
  rw [if_neg hn, if_pos h]

theorem offerAnnouncement_of_outOfStep {f : Assembly} {s : State} (hn : (parseAnnouncement f.chars).station ≠ s.own)
    (h : s.outOfStep (parseAnnouncement f.chars) f.edgePhase f.edgeCount = true) : offerAnnouncement f s = s := by
  unfold offerAnnouncement
  dsimp only
  rw [if_neg hn, if_pos h]
  exact ite_self _

theorem offerAnnouncement_of_accepted {f : Assembly} {s : State} (hn : (parseAnnouncement f.chars).station ≠ s.own)
    (hm : (parseAnnouncement f.chars).mode ≠ none)
    (h : s.outOfStep (parseAnnouncement f.chars) f.edgePhase f.edgeCount = false) :
    offerAnnouncement f s = acceptAnnouncement (parseAnnouncement f.chars) f.edgeAge s := by
  unfold offerAnnouncement
  dsimp only
  rw [if_neg hn, if_neg hm, if_neg (by rw [h]; decide)]

/-! ### Refused announcements -/

/-- Settles O32, by the three grounds on which an announcement is refused. -/
theorem refusedAnnouncementLeavesTheTable : Obligations.RefusedAnnouncementLeavesTheTable := by
  intro c inp s f k hrun ha hf hkind hlen hv hc ch count slot early hk hrefused
  have he := exec_frameArrival hrun c inp
  have hx : arriveFrame c { s with inputs := inp } =
      (offerAnnouncement f (State.cleared c { s with inputs := inp })).arrived c f.chars := by
    rw [← offerFrame_announcement hkind]
    exact arriveFrame_of_active (s := { s with inputs := inp }) ha hf (by rw [hkind, hlen]; decide) hv (by rw [hkind]; exact hc)
  have hstation : (parseAnnouncement f.chars).station = k := parseAnnouncement_station hk
  have hown : (State.cleared c { s with inputs := inp }).own = s.own := by
    rw [State.cleared_frame]
    rfl
  have htimer : (State.cleared c { s with inputs := inp }).timer = s.timer := by
    rw [State.cleared_frame]
  rw [hx] at he
  refine ⟨fun hn => ?_, fun hkown hj => ?_⟩
  · have hsame : offerAnnouncement f (State.cleared c { s with inputs := inp }) = State.cleared c { s with inputs := inp } := by
      by_cases hkown : k = s.own
      · rw [offerAnnouncement_of_own (by rw [hstation, hown]; exact hkown)]
        exact duplicateHeard_of_not_joining (by rw [htimer]; exact fun hj => hn ⟨hkown, hj⟩)
      · have hne : (parseAnnouncement f.chars).station ≠ (State.cleared c { s with inputs := inp }).own := by
          rw [hstation, hown]
          exact hkown
        rcases hrefused with h | h | ⟨hmember, href, hlow, hstep⟩
        · exact absurd h hkown
        · exact offerAnnouncement_of_no_mode hne (parseAnnouncement_mode_of_three h)
        · by_cases hthree : charAt f.chars 1 / 16 % 4 = 3
          · exact offerAnnouncement_of_no_mode hne (parseAnnouncement_mode_of_three hthree)
          · refine offerAnnouncement_of_outOfStep hne ((State.outOfStep_iff _ _ _ _).mpr ?_)
            unfold State.exempts
            rw [htimer, hstation, parseAnnouncement_count]
            refine ⟨hmember, ?_, hstep⟩
            rintro (h | ⟨r, hr, hkr, hm⟩)
            · exact href h
            · exact hlow r hr ⟨hkr, parseAnnouncement_settled hm⟩
    rw [he, hsame]
    exact congrArg (fun t => Host.Outcome.next (follow t)) (State.cleared_arrived c f.chars { s with inputs := inp })
  · obtain ⟨r, t, ht, hchosen, hdup⟩ := duplicateHeard_arrived (s := { s with inputs := inp }) hj c f.chars
    refine ⟨r, t, ht, hchosen, ?_⟩
    rw [he, offerAnnouncement_of_own (by rw [hstation, hown]; exact hkown), hdup]

end Sys2Proof.Machine
end

section
/-! Accepted announcements: the entry replaced, the reference chosen anew and the timer realigned (R7, R8, R26 to R31, R33, R37). -/

namespace Sys2Proof.Machine

open Sys2Proof

set_option Elab.async false

/-! ### The reference once the entry is replaced -/

/-- The state in which the sender's entry is replaced and the reference is chosen anew (R8, R26). -/
def State.heard (c : Cable) (k : Station) (e : Entry) (s : State) : State := chooseReference ((s.cleared c).setEntry k e)

theorem State.heard_eq (c : Cable) (k : Station) (e : Entry) (s : State) :
    s.heard c k e =
      setCable c { s.line.cable c with assembly := none }
        { s with table := { s.table with entries := s.table.entries.set k e }
                 timer := { s.timer with reference := (s.heard c k e).timer.reference } } := by
  cases c <;> rfl

theorem State.heard_referenceChosen (c : Cable) (k : Station) (e : Entry) (s : State) : (s.heard c k e).referenceChosen :=
  chooseReference_chosen _

theorem State.heard_frame (c : Cable) (k : Station) (e : Entry) (s : State) :
    (s.heard c k e).own = s.own ∧ (s.heard c k e).arb = s.arb ∧
      (s.heard c k e).timer = { s.timer with reference := (s.heard c k e).timer.reference } ∧
      (s.heard c k e).table.entries = s.table.entries.set k e := by
  cases c <;> exact ⟨rfl, rfl, rfl, rfl⟩

/-- The other stations are candidates as before. -/
theorem State.heard_candidate_of_ne {j k : Station} (h : j ≠ k) (c : Cable) (e : Entry) (s : State) :
    (s.heard c k e).isReferenceCandidate j ↔ s.isReferenceCandidate j := by
  obtain ⟨hown, _, htimer, hentries⟩ := State.heard_frame c k e s
  have hj : (s.table.entries.set k e)[j] = s.table.entries[j] := Vector.getElem_set_ne k.isLt j.isLt (fun hv => h (Fin.ext hv.symm))
  unfold State.isReferenceCandidate
  rw [hown, htimer, hentries, hj]

/-- The sender is a candidate where it is settled. -/
theorem State.heard_candidate_self {k : Station} {s : State} (hk : k ≠ s.own) (c : Cable) {e : Entry} {f : EntryFields}
    (he : e.status = .fresh) (hf : e.fields = some f) :
    (s.heard c k e).isReferenceCandidate k ↔ f.mode = .member ∨ f.mode = .isolated := by
  obtain ⟨hown, _, htimer, hentries⟩ := State.heard_frame c k e s
  have hself : (s.table.entries.set k e)[k] = e := Vector.getElem_set_self k.isLt
  unfold State.isReferenceCandidate
  rw [hown, htimer, hentries, hself, he, hf]
  simp [hk]

/-- The sender is the reference after its announcement where it is settled and no candidate comes before it (R26). -/
theorem State.heard_reference_iff {k : Station} {s : State} (hk : k ≠ s.own) (c : Cable) {e : Entry} {f : EntryFields}
    (he : e.status = .fresh) (hf : e.fields = some f) :
    (s.heard c k e).timer.reference = some k ↔
      (f.mode = .member ∨ f.mode = .isolated) ∧ ∀ j, j < k → ¬ s.isReferenceCandidate j := by
  obtain ⟨hsome, hnone⟩ := State.heard_referenceChosen c k e s
  have hself := State.heard_candidate_self hk c he hf
  have hother (j : Station) (hj : j ≠ k) := State.heard_candidate_of_ne hj c e s
  constructor
  · intro h
    obtain ⟨hcand, hfirst⟩ := hsome k h
    exact ⟨hself.mp hcand, fun j hj hc => hfirst j hj ((hother j (Fin.ne_of_lt hj)).mpr hc)⟩
  · rintro ⟨hm, hfirst⟩
    have hcand := hself.mpr hm
    cases hr : (s.heard c k e).timer.reference with
    | none => exact absurd hcand (hnone hr k)
    | some r =>
      obtain ⟨hrc, hrfirst⟩ := hsome r hr
      rcases lt_trichotomy r k with h | h | h
      · exact absurd ((hother r (Fin.ne_of_lt h)).mp hrc) (hfirst r h)
      · rw [h]
      · exact absurd hcand (hrfirst k h)

/-! ### What an accepted frame does to the mode -/

/-- A station that rejoins is JOINING and aligned, with its joining count at 0 and the reference chosen anew (R26, R32, R37). -/
def State.rejoined (s : State) : State :=
  chooseReference (State.raise .modeChange
    { s with timer := { s.timer with mode := .joining, aligned := true, joiningCount := 0 } })

theorem rejoin_of_isolated {s : State} (h : s.timer.mode = .isolated) : rejoin s = s.rejoined := by
  unfold rejoin setMode
  refine if_neg ?_
  change ¬ s.timer.mode = .joining
  rw [h]
  decide

theorem alignMode_of_isolated {s : State} (h : s.timer.mode = .isolated) (first : Bool) : alignMode first s = s.rejoined := by
  unfold alignMode
  rw [if_pos h, rejoin_of_isolated h]

theorem alignMode_of_not_first {s : State} (h : s.timer.mode ≠ .isolated) : alignMode false s = s := by
  unfold alignMode
  rw [if_neg h]
  rfl

/-- A first frame aligns a JOINING station (R33). -/
theorem alignMode_of_first {s : State} (h : s.timer.mode ≠ .isolated) :
    alignMode true s =
      { s with timer := { s.timer with aligned := decide (s.timer.mode = .joining) || s.timer.aligned } } := by
  unfold alignMode
  rw [if_neg h, Bool.true_and]
  by_cases hj : s.timer.mode = .joining
  · rw [if_pos (decide_eq_true hj), decide_eq_true hj, Bool.true_or]
  · rw [if_neg (by rw [decide_eq_false hj]; decide), decide_eq_false hj, Bool.false_or]

/-- The round of an accepted frame is marked (R31). -/
def State.marksRound (s : State) : State := { s with timer := { s.timer with roundMarked := true } }

/-- An accepted announcement, from the entry that it makes. -/
theorem acceptAnnouncement_eq {cs : List Byte} {k : Station} {m : Mode} (hk : charAt cs 1 % 16 = k.val) (hm : announcesMode cs m)
    (age : Nat) (c : Cable) (s : State) :
    acceptAnnouncement (parseAnnouncement cs) age (s.cleared c) =
      let first := s.awaitsFirstFrame
      let y := s.heard c k (announcedEntry cs m)
      let u := if first || decide (y.timer.reference = some k) then realignOrHold k (announcedCount cs) age y else y
      (alignMode first u).marksRound := by
  have hfirst : (s.cleared c).awaitsFirstFrame = s.awaitsFirstFrame := by
    rw [State.cleared_frame]
    rfl
  unfold acceptAnnouncement
  rw [applyAnnouncement_eq hk hm, hfirst, parseAnnouncement_station hk, parseAnnouncement_count]
  rfl

end Sys2Proof.Machine
end

section
/-! FRAME_ARRIVAL of an announcement that a station in step accepts (R7, R8, R26 to R31, R37, R146, R154). -/

namespace Sys2Proof.Machine

open Sys2Proof

set_option Elab.async false

/-- The state that an accepted announcement leaves of the timer and the table, before its round is marked (R8, R27 to R29). -/
def State.realigned (c : Cable) (k : Station) (cs : List Byte) (m : Mode) (age : Nat) (s : State) : State :=
  realignOrHold k (announcedCount cs) age (s.heard c k (announcedEntry cs m))

/-- A valid announcement of another station on the active cable that is in step is accepted. -/
theorem exec_frameArrival_of_accepted {c : Cable} {inp : Inputs} {s : State} {f : Assembly} {k : Station} {m : Mode}
    (hrun : s.cond = .running) (ha : s.line.active = c) (hf : (s.line.cable c).assembly = some f) (hkind : f.kind = .announcement)
    (hlen : f.chars.length = 13) (hv : f.void = false) (hc : frameCheckOk .announcement f.chars = true)
    (hk : charAt f.chars 1 % 16 = k.val) (hne : k ≠ s.own) (hm : announcesMode f.chars m)
    (hstep : s.outOfStep (parseAnnouncement f.chars) f.edgePhase f.edgeCount = false) :
    exec (.frameArrival c inp) s =
      .next (follow ((acceptAnnouncement (parseAnnouncement f.chars) f.edgeAge
        (State.cleared c { s with inputs := inp })).arrived c f.chars)) := by
  have hx := arriveFrame_of_active (s := { s with inputs := inp }) ha hf (by rw [hkind, hlen]; decide) hv (by rw [hkind]; exact hc)
  rw [offerFrame_announcement hkind] at hx
  have hstation : (parseAnnouncement f.chars).station ≠ (State.cleared c { s with inputs := inp }).own := by
    rw [parseAnnouncement_station hk, State.cleared_frame]
    exact hne
  have hmode : (parseAnnouncement f.chars).mode ≠ none := by
    rw [parseAnnouncement_mode hm]
    exact Option.some_ne_none m
  have hin : (State.cleared c { s with inputs := inp }).outOfStep (parseAnnouncement f.chars) f.edgePhase f.edgeCount = false := by
    rw [State.cleared_frame]
    exact hstep
  rw [exec_frameArrival hrun, hx, offerAnnouncement_of_accepted hstation hmode hin]

/-- In step are the frames of the reference, of a lower-numbered settled station, and those of the own count within 6 ms of their
place (R30). -/
theorem outOfStep_of_accepted {s : State} {f : Assembly} {k : Station} {m : Mode} (hk : charAt f.chars 1 % 16 = k.val)
    (hm : announcesMode f.chars m)
    (h : s.timer.mode ≠ .member ∨ s.timer.reference = some k ∨ (∃ r, s.timer.reference = some r ∧ k < r ∧ m ≠ .joining) ∨
      announcedCount f.chars = f.edgeCount ∧ (lateBy f.edgePhase k ≤ 6000 ∨ 494000 ≤ lateBy f.edgePhase k)) :
    s.outOfStep (parseAnnouncement f.chars) f.edgePhase f.edgeCount = false := by
  rw [← Bool.not_eq_true, State.outOfStep_iff, parseAnnouncement_station hk, parseAnnouncement_count, parseAnnouncement_mode hm]
  rintro ⟨hmember, hexempt, hfar⟩
  rcases h with h | h | ⟨r, hr, hkr, hj⟩ | ⟨hcount, hnear⟩
  · exact h hmember
  · exact hexempt (.inl h)
  · refine hexempt (.inr ⟨r, hr, hkr, ?_⟩)
    rcases hm with ⟨_, rfl⟩ | ⟨_, rfl⟩ | ⟨_, rfl⟩
    · exact absurd rfl hj
    · exact .inl rfl
    · exact .inr rfl
  · rcases hfar with h | h
    · exact h hcount
    · omega

/-- A settled mode is any but JOINING, of those announced. -/
theorem announcesMode_settled_iff {cs : List Byte} {m : Mode} (h : announcesMode cs m) :
    (m = .member ∨ m = .isolated) ↔ m ≠ .joining := by
  rcases h with ⟨_, rfl⟩ | ⟨_, rfl⟩ | ⟨_, rfl⟩ <;> decide

/-- The sender is the reference after its announcement where it is settled and no candidate comes before it (R26, R28). -/
theorem heard_reference_announced {k : Station} {s : State} {cs : List Byte} {m : Mode} (hk : k ≠ s.own) (hm : announcesMode cs m)
    (c : Cable) :
    (s.heard c k (announcedEntry cs m)).timer.reference = some k ↔
      m ≠ .joining ∧ ∀ j, j < k → ¬ s.isReferenceCandidate j := by
  rw [State.heard_reference_iff hk c (e := announcedEntry cs m) rfl rfl, ← announcesMode_settled_iff hm]

/-- A realignment that is made sets phase and count from the frame (R27). -/
theorem realign_phase (k : Station) (count : Word16) (age : Nat) (s : State) :
    (realign k count age s).timer.phase = alignedPhase k age ∧ (realign k count age s).timer.count = count := ⟨rfl, rfl⟩

/-- What the mark of the round and the frame's part make of a state. -/
theorem State.marksRound_arrived (c : Cable) (cs : List Byte) (u : State) :
    u.marksRound.arrived c cs =
      setCable c { u.line.cable c with frameMark := true }
        { u with timer := { u.timer with roundMarked := true }, line := { u.line with check := u.line.check.afterActive cs } } := rfl

/-- The mark of the round is no part of the choice of the reference. -/
theorem State.marksRound_referenceChosen {u : State} (h : u.referenceChosen) : u.marksRound.referenceChosen := h

/-- A station that rejoins, with the mark of the round and the frame's part. -/
theorem State.rejoined_arrived (c : Cable) (cs : List Byte) (u : State) :
    ∃ q, ∃ t : State,
      t = setCable c { u.line.cable c with frameMark := true }
        { u with timer := { u.timer with mode := .joining, aligned := true, joiningCount := 0, reference := q, roundMarked := true }
                 line := { u.line with check := u.line.check.afterActive cs }
                 port := { u.port with flags := u.port.flags ||| 0b100000 } } ∧
      t.referenceChosen ∧ u.rejoined.marksRound.arrived c cs = t := by
  have hchosen : u.rejoined.referenceChosen := chooseReference_chosen _
  refine ⟨u.rejoined.timer.reference, u.rejoined.marksRound.arrived c cs, ?_,
    State.arrived_referenceChosen (State.marksRound_referenceChosen hchosen) c cs, rfl⟩
  have h : u.rejoined =
      { u with timer := { u.timer with mode := .joining, aligned := true, joiningCount := 0
                                       reference := u.rejoined.timer.reference }
               port := { u.port with flags := u.port.flags ||| 0b100000 } } := rfl
  generalize u.rejoined.timer.reference = q at h ⊢
  rw [h]
  rfl

/-- A sender that is not the reference: its entry, the mark of the round and the frame's part. -/
theorem State.heard_arrived (c : Cable) (k : Station) (e : Entry) (cs : List Byte) (s : State) :
    ∃ r, ∃ t : State,
      t = setCable c { s.line.cable c with assembly := none, frameMark := true }
        { s with table := { s.table with entries := s.table.entries.set k e }
                 timer := { s.timer with roundMarked := true, reference := r }
                 line := { s.line with check := s.line.check.afterActive cs } } ∧
      t.referenceChosen ∧ (s.heard c k e).marksRound.arrived c cs = t := by
  refine ⟨(s.heard c k e).timer.reference, (s.heard c k e).marksRound.arrived c cs, ?_,
    State.arrived_referenceChosen (State.marksRound_referenceChosen (State.heard_referenceChosen c k e s)) c cs, rfl⟩
  have h := State.heard_eq c k e s
  generalize (s.heard c k e).timer.reference = r at h ⊢
  rw [h]
  cases c <;> rfl

/-- Settles O29, by whether the sender is the reference after its announcement and what mode the realignment leaves. -/
theorem acceptedAnnouncementReplacesTheEntry : Obligations.AcceptedAnnouncementReplacesTheEntry := by
  intro c inp s f k m hrun ha hf hkind hlen hv hc ch count early entry hk hne hm hmode
  have hstep : s.outOfStep (parseAnnouncement f.chars) f.edgePhase f.edgeCount = false := by
    refine outOfStep_of_accepted hk hm ?_
    rcases hmode with ⟨h, _⟩ | h | ⟨_, h⟩
    · exact .inl (by rw [h]; decide)
    · exact .inl (by rw [h]; decide)
    · exact .inr h
  have hnotFirst : State.awaitsFirstFrame { s with inputs := inp } = false := by
    change (decide (s.timer.mode = .joining) && !s.timer.aligned || decide (s.timer.mode = .isolated)) = false
    rcases hmode with ⟨h, h'⟩ | h | ⟨h, _⟩
    · rw [h, h']
      rfl
    · rw [h]
      rfl
    · rw [h]
      rfl
  have hsettled : s.timer.mode ≠ .isolated := by
    rcases hmode with ⟨h, _⟩ | h | ⟨h, _⟩ <;> rw [h] <;> decide
  have he := exec_frameArrival_of_accepted (inp := inp) hrun ha hf hkind hlen hv hc hk hne hm hstep
  rw [acceptAnnouncement_eq hk hm] at he
  dsimp only at he
  rw [hnotFirst, Bool.false_or] at he
  have href := heard_reference_announced (s := { s with inputs := inp }) hne hm c
  refine ⟨fun h => ?_, fun hj hfirst => ?_⟩
  · have hnot : (State.heard c k (announcedEntry f.chars m) { s with inputs := inp }).timer.reference ≠ some k := by
      rw [Ne, href]
      rintro ⟨hj, hfirst⟩
      rcases h with h | ⟨j, hjk, hcand⟩
      · exact hj h
      · exact hfirst j hjk hcand
    rw [if_neg (by rw [decide_eq_false hnot]; decide)] at he
    have hmode' : (State.heard c k (announcedEntry f.chars m) { s with inputs := inp }).timer.mode ≠ .isolated := by
      rw [State.heard_eq, setCable_timer]
      exact hsettled
    rw [alignMode_of_not_first hmode'] at he
    obtain ⟨r, t, ht, hchosen, harrived⟩ :=
      State.heard_arrived c k (announcedEntry f.chars m) f.chars { s with inputs := inp }
    rw [harrived] at he
    exact ⟨r, t, ht, hchosen, he⟩
  · have hr : (State.heard c k (announcedEntry f.chars m) { s with inputs := inp }).timer.reference = some k :=
      href.mpr ⟨hj, hfirst⟩
    have happlied := State.heard_eq c k (announcedEntry f.chars m) { s with inputs := inp }
    rw [hr] at happlied
    rw [if_pos (decide_eq_true hr), happlied] at he
    intro applied u
    change exec _ _ = Host.Outcome.next (follow ((alignMode false u).marksRound.arrived c f.chars)) at he
    refine ⟨fun hu => ?_, fun hu => ?_, fun hw => ?_⟩
    · rw [he, alignMode_of_not_first hu, State.marksRound_arrived]
    · obtain ⟨q, t, ht, hchosen, harrived⟩ := State.rejoined_arrived c f.chars u
      refine ⟨q, t, ht, hchosen, ?_⟩
      rw [he, alignMode_of_isolated hu, harrived]
    · have hfree : u = realign k count f.edgeAge applied := by
        refine realignOrHold_of_free ?_ k count f.edgeAge
        change ∀ w, (setCable c _ _).arb.window = some w → _
        rw [setCable_arb]
        exact hw
      rw [hfree]
      exact realign_phase k count f.edgeAge applied

end Sys2Proof.Machine
end

section
/-! FRAME_ARRIVAL of the first announcement that a JOINING or ISOLATED station accepts (R27, R28, R32, R33, R37). -/

namespace Sys2Proof.Machine

open Sys2Proof

set_option Elab.async false

/-! ### What a realignment leaves -/

/-- The realignment takes the round end (R28). -/
def State.carries (s : State) (k : Station) (age : Nat) : Bool :=
  decide (forwardMove s.timer.phase (alignedPhase k age) ≤ 250000 ∧
    500000 ≤ s.timer.phase + forwardMove s.timer.phase (alignedPhase k age))

/-- The mode that a round end leaves of an ISOLATED station, and of a JOINING one whose round is not marked (R34, R36, R37). -/
theorem countsRoundEnd_mode (s : State) :
    (s.timer.mode = .isolated → (countsRoundEnd s).timer.mode = .isolated) ∧
      (s.timer.mode = .joining → s.timer.roundMarked = false →
        (countsRoundEnd s).timer.mode = .joining ∨ (countsRoundEnd s).timer.mode = .isolated) := by
  refine ⟨fun h => ?_, fun h hm => ?_⟩
  · unfold countsRoundEnd
    simp only [h]
  · unfold countsRoundEnd
    extract_lets t unheard readBack _ _ joining
    have hzero : joining = 0 := if_neg (by change ¬ s.timer.roundMarked = true; rw [hm]; decide)
    have hmode : t.mode = .joining := h
    clear_value unheard readBack joining
    simp only [hmode]
    rw [if_neg (by rw [hzero]; decide)]
    split
    · exact .inr (by rw [setMode_timer])
    · exact .inl h

theorem realign_mode (k : Station) (count : Word16) (age : Nat) (s : State) :
    (s.timer.mode = .isolated → (realign k count age s).timer.mode = .isolated) ∧
      (s.timer.mode = .joining → s.timer.roundMarked = false →
        (realign k count age s).timer.mode = .joining ∨ (realign k count age s).timer.mode = .isolated) := by
  by_cases h : s.carries k age
  · obtain ⟨hm, hc⟩ := of_decide_eq_true h
    have hmode : (realign k count age s).timer.mode = (countsRoundEnd (gaugeStage s)).timer.mode := by
      rw [realign_of_carrying_eq hm hc]
      rfl
    have htimer : (gaugeStage s).timer = s.timer := (gaugeStage_frame s).1
    have hcounts := countsRoundEnd_mode (gaugeStage s)
    rw [htimer] at hcounts
    rw [hmode]
    exact hcounts
  · rw [realign_of_not_carrying (fun h' => h (decide_eq_true h'))]
    exact ⟨fun h => h, fun h _ => .inl h⟩

/-- The changes that a realignment counts, with the count as a round end that it takes leaves it (R28). -/
theorem realign_realignCount (k : Station) (count : Word16) (age : Nat) {s : State} {n : Word16}
    (hn : n = s.timer.count + (if s.carries k age then 1 else 0)) :
    (realign k count age s).timer.realignCount =
      realignGain (forwardMove s.timer.phase (alignedPhase k age)) (n = count) s.timer.realignCount := by
  by_cases h : s.carries k age
  · obtain ⟨hm, hc⟩ := of_decide_eq_true h
    rw [if_pos h] at hn
    subst hn
    rw [realign_of_carrying_eq hm hc]
  · rw [if_neg h] at hn
    replace hn : n = s.timer.count := hn.trans (BitVec.add_zero _)
    subst hn
    rw [realign_of_not_carrying (fun h' => h (decide_eq_true h'))]
    rfl

/-- The entries as the realignment leaves them: aged where it takes the round end (R13, R28). -/
theorem realign_entry (k : Station) (count : Word16) (age : Nat) (s : State) (j : Station) :
    (realign k count age s).table.entries[j] = if s.carries k age then (s.table.entries[j]).aged else s.table.entries[j] := by
  by_cases h : s.carries k age
  · obtain ⟨hm, hc⟩ := of_decide_eq_true h
    obtain ⟨_, _, _, _, _, htable, _⟩ := takeRoundEnd_frame s
    have hentries : (roundEndWork s).table.entries = ageEntries s.table.entries :=
      (congrArg Table.entries (htable.trans (tableStage_table s))).trans (tableRoundEnd_entries s).1
    rw [if_pos h, ← ageEntries_getElem, ← hentries, realign_of_carrying_eq hm hc]
    rfl
  · rw [if_neg h, realign_of_not_carrying (fun h' => h (decide_eq_true h'))]
    rfl

/-! ### The first frame -/

/-- A station that waits for its first frame is JOINING and aligned after it (R33, R37). -/
theorem alignMode_first_frame {u : State} (h : u.timer.mode = .joining ∨ u.timer.mode = .isolated) :
    (alignMode true u).timer.mode = .joining ∧ (alignMode true u).timer.aligned = true ∧
      (alignMode true u).timer.phase = u.timer.phase ∧ (alignMode true u).timer.count = u.timer.count ∧
      (alignMode true u).timer.realignCount = u.timer.realignCount ∧ (alignMode true u).table = u.table ∧
      (u.timer.mode = .isolated →
        (alignMode true u).timer.joiningCount = 0 ∧ (alignMode true u).port.flags.getLsbD 5 = true) := by
  rcases h with h | h
  · rw [alignMode_of_first (by rw [h]; decide), h]
    exact ⟨rfl, rfl, rfl, rfl, rfl, rfl, fun h => absurd h (by decide)⟩
  · rw [alignMode_of_isolated h]
    refine ⟨rfl, rfl, rfl, rfl, rfl, rfl, fun _ => ⟨rfl, ?_⟩⟩
    exact flag_raise_self (f := .modeChange) (by decide) _

/-- What the first frame leaves of a station that waits for it, the realignment made (R27, R28, R33, R37). -/
theorem firstFrame_leaves (k : Station) (count : Word16) (age : Nat) {y : State} {n : Word16}
    (hwaits : y.timer.mode = .joining ∧ y.timer.roundMarked = false ∨ y.timer.mode = .isolated)
    (hn : n = y.timer.count + (if y.carries k age then 1 else 0)) :
    let v := alignMode true (realign k count age y)
    v.timer.mode = .joining ∧ v.timer.aligned = true ∧ v.timer.phase = alignedPhase k age ∧ v.timer.count = count ∧
      v.timer.realignCount =
        realignGain (forwardMove y.timer.phase (alignedPhase k age)) (n = count) y.timer.realignCount ∧
      (y.timer.mode = .isolated → v.timer.joiningCount = 0 ∧ v.port.flags.getLsbD 5 = true) ∧
      v.table.entries[k] = if y.carries k age then (y.table.entries[k]).aged else y.table.entries[k] := by
  have hmodes := realign_mode k count age y
  have hgain := realign_realignCount k count age hn
  have hentry := realign_entry k count age y k
  obtain ⟨hphase, hcount⟩ := realign_phase k count age y
  have hmode : (realign k count age y).timer.mode = .joining ∨ (realign k count age y).timer.mode = .isolated := by
    rcases hwaits with ⟨h, h'⟩ | h
    · exact hmodes.2 h h'
    · exact .inr (hmodes.1 h)
  obtain ⟨hj, haligned, hp, hc, hr, ht, hi⟩ := alignMode_first_frame hmode
  exact ⟨hj, haligned, hp.trans hphase, hc.trans hcount, hr.trans hgain, fun h => hi (hmodes.1 h), by rw [ht, hentry]⟩

/-- The mark of the round, the frame's part and the following of the event leave the timer, the table and the flags. -/
theorem State.marksRound_arrived_frame (c : Cable) (cs : List Byte) (v : State) :
    (follow (v.marksRound.arrived c cs)).timer = { v.timer with roundMarked := true } ∧
      (follow (v.marksRound.arrived c cs)).table = v.table ∧ (follow (v.marksRound.arrived c cs)).port = v.port ∧
      ((follow (v.marksRound.arrived c cs)).line.cable c).frameMark = true := by
  rw [follow_timer, follow_table, follow_port, follow_line]
  cases c <;> exact ⟨rfl, rfl, rfl, rfl⟩

/-- What stands of a first frame once the event has been followed. -/
theorem firstFrame_followed {k : Station} {v : State} {phase joining : Nat} {count gain : Word16} {e : Entry} (c : Cable)
    (cs : List Byte) {isolated : Prop}
    (h : v.timer.mode = .joining ∧ v.timer.aligned = true ∧ v.timer.phase = phase ∧ v.timer.count = count ∧
      v.timer.realignCount = gain ∧ (isolated → v.timer.joiningCount = joining ∧ v.port.flags.getLsbD 5 = true) ∧
      v.table.entries[k] = e) :
    let t := follow (v.marksRound.arrived c cs)
    t.timer.mode = .joining ∧ t.timer.aligned = true ∧ t.timer.phase = phase ∧ t.timer.count = count ∧
      t.timer.roundMarked = true ∧ t.timer.realignCount = gain ∧
      (isolated → t.timer.joiningCount = joining ∧ t.port.flags.getLsbD 5 = true) ∧
      (t.table.entries[k]).status = e.status ∧ (t.table.entries[k]).age = e.age ∧ (t.line.cable c).frameMark = true := by
  obtain ⟨hj, haligned, hphase, hcount, hgain, hisolated, hentry⟩ := h
  obtain ⟨htimer, htable, hport, hmark⟩ := State.marksRound_arrived_frame c cs v
  intro t
  rw [show t.timer = _ from htimer, show t.table = _ from htable, show t.port = _ from hport, hentry]
  exact ⟨hj, haligned, hphase, hcount, rfl, hgain, hisolated, rfl, rfl, hmark⟩

/-- Settles O31, by the mode that the realignment leaves. -/
theorem firstAcceptedFrameAlignsAJoiningStation : Obligations.FirstAcceptedFrameAlignsAJoiningStation := by
  intro c inp s f k hrun ha hf hkind hlen hv hc ch count phase move carried entry hk hne hthree hmode
  have hfirst : State.awaitsFirstFrame { s with inputs := inp } = true := by
    change (decide (s.timer.mode = .joining) && !s.timer.aligned || decide (s.timer.mode = .isolated)) = true
    rcases hmode with ⟨h, h'⟩ | h
    · rw [h, h']
      rfl
    · rw [h]
      rfl
  have he (m : Mode) (hm : announcesMode f.chars m) : exec (.frameArrival c inp) s =
      .next (follow ((alignMode true (State.realigned c k f.chars m f.edgeAge { s with inputs := inp })).marksRound.arrived c
        f.chars)) := by
    have hstep : s.outOfStep (parseAnnouncement f.chars) f.edgePhase f.edgeCount = false := by
      refine outOfStep_of_accepted hk hm (.inl ?_)
      rcases hmode with ⟨h, _⟩ | h <;> rw [h] <;> decide
    have he := exec_frameArrival_of_accepted (inp := inp) hrun ha hf hkind hlen hv hc hk hne hm hstep
    rw [acceptAnnouncement_eq hk hm] at he
    dsimp only at he
    rw [hfirst, Bool.true_or, if_pos rfl] at he
    exact he
  refine ⟨fun m hm => ?_, fun hmark hw => ?_⟩
  · refine ⟨(State.heard c k (announcedEntry f.chars m) { s with inputs := inp }).timer.reference,
      State.heard c k (announcedEntry f.chars m) { s with inputs := inp },
      State.realigned c k f.chars m f.edgeAge { s with inputs := inp }, State.heard_eq _ _ _ _,
      State.heard_referenceChosen _ _ _ _, rfl, fun hu => ?_, fun hu => ?_⟩
    · rw [he m hm, alignMode_of_first hu, State.marksRound_arrived]
    · obtain ⟨q, t, ht, hchosen, harrived⟩ :=
        State.rejoined_arrived c f.chars (State.realigned c k f.chars m f.edgeAge { s with inputs := inp })
      refine ⟨q, t, ht, hchosen, ?_⟩
      rw [he m hm, alignMode_of_isolated hu, harrived]
  · obtain ⟨m, hm⟩ : ∃ m, announcesMode f.chars m := by
      have hcode : charAt f.chars 1 / 16 % 4 ≠ 3 := hthree
      rcases (show charAt f.chars 1 / 16 % 4 = 0 ∨ charAt f.chars 1 / 16 % 4 = 1 ∨ charAt f.chars 1 / 16 % 4 = 2 by omega)
        with h | h | h
      · exact ⟨.joining, .inl ⟨h, rfl⟩⟩
      · exact ⟨.member, .inr (.inl ⟨h, rfl⟩)⟩
      · exact ⟨.isolated, .inr (.inr ⟨h, rfl⟩)⟩
    obtain ⟨hown, harb, htimer, hentries⟩ := State.heard_frame c k (announcedEntry f.chars m) { s with inputs := inp }
    have hfree : State.realigned c k f.chars m f.edgeAge { s with inputs := inp } =
        realign k (announcedCount f.chars) f.edgeAge (State.heard c k (announcedEntry f.chars m) { s with inputs := inp }) := by
      refine realignOrHold_of_free ?_ k _ f.edgeAge
      rw [harb]
      exact hw
    have hself : (State.heard c k (announcedEntry f.chars m) { s with inputs := inp }).table.entries[k] =
        announcedEntry f.chars m := by
      rw [hentries]
      exact Vector.getElem_set_self k.isLt
    generalize State.heard c k (announcedEntry f.chars m) { s with inputs := inp } = y at *
    have hcarries : y.carries k f.edgeAge = carried := by
      unfold State.carries
      rw [htimer]
      rfl
    have hleft := firstFrame_leaves k (announcedCount f.chars) f.edgeAge (y := y) (n := s.timer.count + if carried then 1 else 0)
      (by rw [htimer]
          rcases hmode with ⟨h, _⟩ | h
          · exact .inl ⟨h, hmark h⟩
          · exact .inr h)
      (by rw [hcarries, htimer])
    have he' := he m hm
    rw [hfree] at he'
    rw [hcarries, hself, htimer] at hleft
    have hage : (if carried then (announcedEntry f.chars m).aged else announcedEntry f.chars m).status = .fresh ∧
        (if carried then (announcedEntry f.chars m).aged else announcedEntry f.chars m).age = if carried then 1 else 0 := by
      split <;> exact ⟨rfl, rfl⟩
    obtain ⟨hstatus, hage⟩ := hage
    rw [← hstatus, ← hage]
    exact ⟨_, he', firstFrame_followed c f.chars hleft⟩

end Sys2Proof.Machine
end

section
/-! Confirmations heard (R11, R12, R35, R75, R76, R78, R146, R154). -/

namespace Sys2Proof.Machine

open Sys2Proof

set_option Elab.async false

/-- The arbiter after a confirmation heard: its window is not free and its record replaced (R75, R76). -/
def Arbiter.heard (a : Arbiter) (r : WindowRecord) : Arbiter :=
  { a with record := some r, window := a.window.map (fun w => { w with notFree := true }) }

theorem parseConfirmation_at {cs : List Byte} {k : Station} {p : PumpIx} (hk : charAt cs 1 % 16 = k.val)
    (hp : charAt cs 1 / 16 % 4 = p.val) :
    (parseConfirmation cs).station = k ∧ (parseConfirmation cs).pump = p ∧ (parseConfirmation cs).rating = cs.getD 2 0 := by
  refine ⟨Fin.ext ?_, Fin.ext ?_, rfl⟩
  · change ((cs.getD 1 0).extractLsb' 0 4).toNat % 16 = k.val
    rw [extract_low_nibble, Nat.mod_mod]
    exact hk
  · change ((cs.getD 1 0).extractLsb' 4 2).toNat % 4 = p.val
    rw [extract_mode_code, Nat.mod_mod]
    exact hp

/-- What the table makes of a confirmation of station `k` (R11, R12). -/
def State.confirmedEntry (s : State) (k : Station) (cs : List Byte) : Entry :=
  if charAt cs 2 = 0 ∨ 8 < charAt cs 2 then s.table.entries[k] else (s.table.entries[k]).confirm (charAt cs 2) s.timer.count

theorem applyConfirmation_of_own {c : Confirmation} {s : State} (h : c.station = s.own) : applyConfirmation c s = s :=
  if_pos (.inr (.inr h))

theorem applyConfirmation_of_other {cs : List Byte} {k : Station} {s : State} (hk : (parseConfirmation cs).station = k)
    (hn : k ≠ s.own) :
    applyConfirmation (parseConfirmation cs) s =
      { s with table := { s.table with entries := s.table.entries.set k (s.confirmedEntry k cs) } } := by
  subst hk
  unfold applyConfirmation State.confirmedEntry
  change (if charAt cs 2 = 0 ∨ 8 < charAt cs 2 ∨ (parseConfirmation cs).station = s.own then s else s.setEntry _ _) = _
  by_cases h : charAt cs 2 = 0 ∨ 8 < charAt cs 2
  · rw [if_pos (or_assoc.mp (.inl h)), if_pos h]
    have hsame : s.table.entries.set (parseConfirmation cs).station s.table.entries[(parseConfirmation cs).station] =
        s.table.entries := Vector.set_getElem_self (Fin.isLt _)
    rw [hsame]
  · rw [if_neg (fun h' => (or_assoc.mpr h').elim h hn), if_neg h]
    rfl

/-- A confirmation of another station is taken by the table and the arbiter. -/
theorem offerConfirmation_of_other {f : Assembly} {k : Station} {p : PumpIx} {s : State} (hk : charAt f.chars 1 % 16 = k.val)
    (hp : charAt f.chars 1 / 16 % 4 = p.val) (hn : k ≠ s.own) :
    offerConfirmation f s =
      { s with table := { s.table with entries := s.table.entries.set k (s.confirmedEntry k f.chars) }
               arb := s.arb.heard { station := k, pump := p, rating := f.chars.getD 2 0, round := s.timer.count } } := by
  obtain ⟨hstation, hpump, hrating⟩ := parseConfirmation_at hk hp
  unfold offerConfirmation
  dsimp only
  rw [applyConfirmation_of_other hstation hn, hstation, hpump, hrating]
  exact if_neg hn

/-- A confirmation with the own number leaves the table (R11, R35). -/
theorem offerConfirmation_of_own {f : Assembly} {p : PumpIx} {s : State} (hk : charAt f.chars 1 % 16 = s.own.val)
    (hp : charAt f.chars 1 / 16 % 4 = p.val) :
    offerConfirmation f s =
      duplicateHeard
        { s with arb := s.arb.heard { station := s.own, pump := p, rating := f.chars.getD 2 0, round := s.timer.count } } := by
  obtain ⟨hstation, hpump, hrating⟩ := parseConfirmation_at hk hp
  unfold offerConfirmation
  dsimp only
  rw [applyConfirmation_of_own hstation, hstation, hpump, hrating]
  exact if_pos rfl

/-- A valid confirmation of the active cable is offered. -/
theorem exec_frameArrival_of_confirmation {c : Cable} {s : State} {f : Assembly} (hrun : s.cond = .running)
    (ha : s.line.active = c) (hf : (s.line.cable c).assembly = some f) (hkind : f.kind = .confirmation) (hlen : f.chars.length = 4)
    (hv : f.void = false) (hc : frameCheckOk .confirmation f.chars = true) (inp : Inputs) :
    exec (.frameArrival c inp) s =
      .next (follow ((offerConfirmation f (State.cleared c { s with inputs := inp })).arrived c f.chars)) := by
  have hx := arriveFrame_of_active (s := { s with inputs := inp }) ha hf (by rw [hkind, hlen]; decide) hv (by rw [hkind]; exact hc)
  rw [offerFrame_confirmation hkind] at hx
  rw [exec_frameArrival hrun, hx]

/-- Settles O33, by whether the confirmation bears the own number and the station is JOINING. -/
theorem confirmationRaisesTheWinnersCommitted : Obligations.ConfirmationRaisesTheWinnersCommitted := by
  refine ⟨fun c inp s f k p hrun ha hf hkind hlen hv hc => ?_, fun c inp s f p hrun ha hf hkind hlen hv hc => ?_⟩
  · intro ch old hk hp hn
    have he := exec_frameArrival_of_confirmation hrun ha hf hkind hlen hv hc inp
    have hown : k ≠ (State.cleared c { s with inputs := inp }).own := by
      rw [State.cleared_frame]
      exact hn
    rw [offerConfirmation_of_other hk hp hown] at he
    have hentry : (State.cleared c { s with inputs := inp }).confirmedEntry k f.chars = s.confirmedEntry k f.chars := by
      rw [State.cleared_frame]
      rfl
    have htable : (State.cleared c { s with inputs := inp }).table = s.table := by rw [State.cleared_frame]
    rw [hentry, htable] at he
    refine ⟨setCable c { s.line.cable c with assembly := none, frameMark := true }
      { s with inputs := inp, table := { s.table with entries := s.table.entries.set k (s.confirmedEntry k f.chars) }
               arb := s.arb.heard { station := k, pump := p, rating := f.chars.getD 2 0, round := s.timer.count }
               line := { s.line with check := s.line.check.afterActive f.chars } }, ?_, ?_⟩
    · rw [he]
      cases c <;> rfl
    · rw [setCable_table]
      have hself : (s.table.entries.set k (s.confirmedEntry k f.chars))[k] = s.confirmedEntry k f.chars :=
        Vector.getElem_set_self k.isLt
      have hconfirmed (h1 : 1 ≤ ch 2) (h8 : ch 2 ≤ 8) : s.confirmedEntry k f.chars = old.confirm (ch 2) s.timer.count :=
        if_neg (by change ¬ (ch 2 = 0 ∨ 8 < ch 2); omega)
      refine ⟨fun h1 h8 hnone => ?_, fun g h1 h8 hsome => ?_, fun h => ?_, fun j hj => ?_, rfl⟩
      · rw [hself, hconfirmed h1 h8, Entry.confirm]
        simp only [hnone]
        rfl
      · rw [hself, hconfirmed h1 h8, Entry.confirm]
        simp only [hsome]
        rfl
      · have hsame : s.confirmedEntry k f.chars = s.table.entries[k] := if_pos h
        have hset : s.table.entries.set k s.table.entries[k] = s.table.entries := Vector.set_getElem_self k.isLt
        rw [hsame, hset]
      · exact Vector.getElem_set_ne k.isLt j.isLt (fun hv => hj (Fin.ext hv.symm))
  · intro ch hk hp arb
    have he := exec_frameArrival_of_confirmation hrun ha hf hkind hlen hv hc inp
    have hown : (State.cleared c { s with inputs := inp }).own = s.own := by
      rw [State.cleared_frame]
      rfl
    rw [offerConfirmation_of_own (by rw [hown]; exact hk) hp] at he
    have hstate : { State.cleared c { s with inputs := inp } with
        arb := (State.cleared c { s with inputs := inp }).arb.heard
          { station := (State.cleared c { s with inputs := inp }).own, pump := p, rating := f.chars.getD 2 0
            round := (State.cleared c { s with inputs := inp }).timer.count } } =
        State.cleared c { s with inputs := inp, arb := arb } := by
      cases c <;> rfl
    rw [hstate] at he
    refine ⟨fun hj => ?_, fun hj => ?_⟩
    · have hnot : (State.cleared c { s with inputs := inp, arb := arb }).timer.mode ≠ .joining := by
        rw [State.cleared_frame]
        exact hj
      rw [he, duplicateHeard_of_not_joining hnot, State.cleared_arrived]
    · obtain ⟨r, t, ht, hchosen, hdup⟩ := duplicateHeard_arrived (s := { s with inputs := inp, arb := arb }) hj c f.chars
      exact ⟨r, t, ht, hchosen, by rw [he, hdup]⟩

end Sys2Proof.Machine
end

section
/-! The cable check's comparisons of the frames of both cables (R154). -/

namespace Sys2Proof.Machine

open Sys2Proof

set_option Elab.async false

/-! ### What the offer of a frame leaves of the check -/

theorem chooseReference_line (s : State) : (chooseReference s).line = s.line := rfl

theorem alignMode_line (first : Bool) (s : State) : (alignMode first s).line = s.line := by
  obtain ⟨_, _, e⟩ := alignMode_changes first s
  rw [e]

theorem duplicateHeard_check (s : State) : (duplicateHeard s).line.check = s.line.check := by
  by_cases h : s.timer.mode = .joining
  · rw [duplicateHeard_of_joining h]
    rfl
  · rw [duplicateHeard_of_not_joining h]

theorem State.carries_eq_false_iff (s : State) (k : Station) (age : Nat) :
    s.carries k age = false ↔ ¬ (forwardMove s.timer.phase (alignedPhase k age) ≤ 250000 ∧
      500000 ≤ s.timer.phase + forwardMove s.timer.phase (alignedPhase k age)) := by
  unfold State.carries
  exact decide_eq_false_iff_not

/-- A realignment that takes no round end changes the timer and the announcement handed over alone. -/
theorem realign_changes_of_not_carrying {k : Station} {age : Nat} {s : State} (h : s.carries k age = false) (count : Word16) :
    ∃ m handed, realign k count age s = { s with timer := m, line := { s.line with handed := handed } } :=
  ⟨_, _, realign_of_not_carrying ((State.carries_eq_false_iff s k age).mp h) count⟩

/-- A realignment that takes no round end leaves the check. -/
theorem realignOrHold_check {k : Station} {age : Nat} {s : State} (h : s.carries k age = false) (count : Word16) :
    (realignOrHold k count age s).line.check = s.line.check := by
  have hn : (realign k count age s).line.check = s.line.check := by
    obtain ⟨_, _, e⟩ := realign_changes_of_not_carrying h count
    rw [e]
  unfold realignOrHold
  split
  · split
    · rfl
    · exact hn
  · exact hn

/-- The offer of a frame by which no round end can be carried in leaves the check. -/
theorem offerFrame_check {f : Assembly} {s : State}
    (h : f.kind = .confirmation ∨ s.carries (parseAnnouncement f.chars).station f.edgeAge = false) :
    (offerFrame f s).line.check = s.line.check := by
  cases hk : f.kind with
  | confirmation =>
    rw [offerFrame_confirmation hk]
    obtain ⟨_, e⟩ := applyConfirmation_changes (parseConfirmation f.chars) s
    unfold offerConfirmation
    dsimp only
    rw [e]
    split
    · exact duplicateHeard_check _
    · rfl
  | announcement =>
    have hcarry : s.carries (parseAnnouncement f.chars).station f.edgeAge = false := by
      rcases h with h | h
      · exact absurd (hk.symm.trans h) (by decide)
      · exact h
    rw [offerFrame_announcement hk]
    unfold offerAnnouncement
    dsimp only
    split
    · exact duplicateHeard_check s
    · split
      · rfl
      · split
        · rfl
        · unfold acceptAnnouncement
          dsimp only
          rw [alignMode_line]
          split
          · exact realignOrHold_check
              (s := chooseReference (applyAnnouncement (parseAnnouncement f.chars) s)) hcarry (parseAnnouncement f.chars).count
          · rfl

/-! ### The arrival of a frame while a check is RUNNING -/

/-- What the standby cable's frame closes: every open comparison, unmatched where it is not valid or differs. -/
theorem CableCheck.afterStandby_of_running {k : CableCheck} (h : k.running = true) (valid : Bool) (cs : List Byte) :
    k.afterStandby (if valid then some cs else none) =
      { k with roundErrored := k.roundErrored || k.opened.any (fun o => !valid || decide (cs ≠ o.chars)), opened := []
               arrivals := k.arrivals ++ [⟨if valid then some cs else none, 0⟩] } := by
  unfold CableCheck.afterStandby
  rw [if_pos h]
  cases valid <;> simp

/-- What the arrival of a frame leaves of a standby cable: a failed one may count, a valid one is marked. -/
theorem arriveFrame_of_standby {s : State} {c : Cable} {f : Assembly} (ha : s.line.active ≠ c)
    (hf : (s.line.cable c).assembly = some f) (hlen : f.kind.length ≤ f.chars.length) :
    let valid := !f.void && frameCheckOk f.kind f.chars
    ∃ x : CableState, x.assembly = none ∧ x.frameMark = ((s.line.cable c).frameMark || valid) ∧
      arriveFrame c s = checkStandbyFrame (if valid then some f.chars else none) (setCable c x s) := by
  have hactive : (s.cleared c).line.active ≠ c := by
    rw [(State.cleared_line c s).1]
    exact ha
  have hactive' (x : CableState) : (setCable c x (s.cleared c)).line.active ≠ c := by
    rw [(setCable_line c x (s.cleared c)).2.2.2.1]
    exact hactive
  have hset (x : CableState) : setCable c x (s.cleared c) = setCable c x s := setCable_setCable c _ _ s
  intro valid
  rw [arriveFrame_of_complete hf hlen]
  cases hv : f.void with
  | true =>
    have hvalid : valid = false := by
      change (!f.void && _) = false
      rw [hv]
      rfl
    rw [judgeFrame_of_void hv, failedArrival_of_standby hactive, hvalid, Bool.or_false]
    exact ⟨{ s.line.cable c with assembly := none }, rfl, rfl, rfl⟩
  | false =>
    have hvalid : valid = frameCheckOk f.kind f.chars := by
      change (!f.void && _) = _
      rw [hv]
      rfl
    cases hc : frameCheckOk f.kind f.chars with
    | true =>
      rw [judgeFrame_of_valid hv hc, validArrival_of_standby hactive, hset, State.cleared_cable, hvalid, hc, Bool.or_true]
      exact ⟨_, rfl, rfl, rfl⟩
    | false =>
      rw [judgeFrame_of_bad hv hc, failedArrival_of_standby (hactive' _), hset, State.cleared_cable, hvalid, hc, Bool.or_false]
      refine ⟨_, ?_, ?_, rfl⟩
      · rw [CableState.countCheck_eq]
      · rw [CableState.countCheck_eq]

/-- Settles O28, by the cable on which the frame arrives and whether it is valid. -/
theorem checkComparesTheFramesOfBothCables : Obligations.CheckComparesTheFramesOfBothCables := by
  intro c inp s f hrun hcheck hf hlen valid k
  have he := exec_frameArrival hrun c inp
  refine ⟨fun ha => ?_, fun ha hvalid => ?_, fun ha hvalid => ?_⟩
  · obtain ⟨x, hnone, hmark, hx⟩ := arriveFrame_of_standby (s := { s with inputs := inp }) ha hf hlen
    rw [hx, checkStandbyFrame_eq] at he
    obtain ⟨hframe, _, _, _, hsame, _⟩ := setCable_line c x { s with inputs := inp }
    have hself (l : CableCheck) : ({ (setCable c x { s with inputs := inp }).line with check := l } : Line).cable c = x := by
      cases c <;> rfl
    rw [hsame, CableCheck.afterStandby_of_running hcheck] at he
    refine ⟨_, he, ?_, ?_, ?_, ?_⟩
    · rw [follow_line]
    · rw [follow_line, hself]
      exact hnone
    · rw [follow_line, hself]
      exact hmark
    · rw [follow_line]
      dsimp only
      rw [hframe]
  · obtain ⟨hvoid, hok⟩ := (Bool.and_eq_true _ _).mp hvalid
    intro phase move hmove
    have hx := arriveFrame_of_active (s := { s with inputs := inp }) ha hf hlen (by simpa using hvoid) hok
    have hstation : (parseAnnouncement f.chars).station.val = charAt f.chars 1 % 16 := by
      change ((f.chars.getD 1 0).extractLsb' 0 4).toNat % 16 = _
      rw [extract_low_nibble, Nat.mod_mod]
      rfl
    have htimer : (State.cleared c { s with inputs := inp }).timer = s.timer := by rw [State.cleared_frame]
    have hcarry : f.kind = .confirmation ∨
        (State.cleared c { s with inputs := inp }).carries (parseAnnouncement f.chars).station f.edgeAge = false := by
      refine hmove.imp_right fun h => (State.carries_eq_false_iff _ _ _).mpr ?_
      rw [htimer]
      unfold alignedPhase
      rw [hstation]
      rintro ⟨h₁, h₂⟩
      change move ≤ 250000 at h₁
      change 500000 ≤ s.timer.phase + move at h₂
      omega
    have hsame := (offerFrame_check hcarry).trans (State.cleared_line c { s with inputs := inp }).2
    rw [hx] at he
    have hafter : (follow ((offerFrame f (State.cleared c { s with inputs := inp })).arrived c f.chars)).line.check =
        k.afterActive f.chars := by
      rw [follow_line, ← show _ = k from hsame]
      generalize offerFrame f (State.cleared c { s with inputs := inp }) = o
      cases c <;> rfl
    refine ⟨_, he, fun harmed => ?_, fun harmed hnone => ?_, fun r harmed hr => ?_⟩
    · rw [hafter]
      exact CableCheck.afterActive_of_unarmed harmed f.chars
    · rw [hafter]
      refine CableCheck.afterActive_of_find_none hcheck harmed (List.find?_eq_none.mpr fun r hr => ?_) f.chars
      rw [decide_eq_true_eq, Nat.not_le]
      exact hnone r hr
    · rw [hafter]
      exact CableCheck.afterActive_of_find_some hcheck harmed hr f.chars
  · have hactive : (State.cleared c { s with inputs := inp }).line.active = c :=
      (State.cleared_line c { s with inputs := inp }).1.trans ha
    have hx : ∃ x : CableState, arriveFrame c { s with inputs := inp } = setCable c x { s with inputs := inp } := by
      rw [arriveFrame_of_complete (s := { s with inputs := inp }) hf hlen]
      cases hv : f.void with
      | true =>
        rw [judgeFrame_of_void hv, failedArrival_of_active hactive]
        exact ⟨_, rfl⟩
      | false =>
        have hbad : frameCheckOk f.kind f.chars = false := by
          change (!f.void && _) = false at hvalid
          rw [hv] at hvalid
          exact hvalid
        rw [judgeFrame_of_bad hv hbad, failedArrival_of_active]
        · exact ⟨_, setCable_setCable c _ _ _⟩
        · exact (setCable_line c _ _).2.2.2.1.trans hactive
    obtain ⟨x, hx⟩ := hx
    rw [hx] at he
    refine ⟨_, he, ?_, ?_, ?_⟩
    · rw [follow_line]
      exact (setCable_line c x { s with inputs := inp }).2.2.2.2.1
    · rw [follow_table, setCable_table]
    · rw [follow_timer, setCable_timer]

end Sys2Proof.Machine
end

section
/-! The events of the pump controllers (R86 to R93, R97, R99, R101). -/

namespace Sys2Proof.Machine

open Sys2Proof

set_option Elab.async false

/-! ### What an event of the pumps leaves -/

/-- An event of the pumps changes the pumps, the players, the drives and the flags, with what follows it. -/
theorem follow_units {s x : State}
    (h : x = { s with inputs := x.inputs, pumps := x.pumps, players := x.players, drives := x.drives, port := x.port }) :
    follow x = follow { s with inputs := (follow x).inputs, pumps := (follow x).pumps, players := (follow x).players
                               drives := (follow x).drives, port := (follow x).port } := by
  rw [follow_inputs, follow_pumps, follow_players, follow_drives, follow_port]
  exact congrArg follow h

/-- A pump that faults leaves with its outputs dropped and its record as R93 says. -/
theorem Pump.toFaulted_eq (p : Pump) (c : FaultCause) :
    p.toFaulted c =
      { p with
        state := .faulted, cause := some c, finishing := false, primeTimer := none, feedbackTimer := none, supervised := false
        missCount := 0, minRunTimer := none, pastMinRun := false, restTimer := none, secondTimer := none
        runMinutes := (p.toFaulted c).runMinutes, accumulator := (p.toFaulted c).accumulator } := by
  unfold Pump.toFaulted
  rw [Pump.leaveRun_eq]

/-- A pump that does not run has no second to count as it faults. -/
theorem Pump.toFaulted_of_not {p : Pump} (h : p.state.runs = false) (c : FaultCause) :
    p.toFaulted c =
      { p with
        state := .faulted, cause := some c, finishing := false, primeTimer := none, feedbackTimer := none, supervised := false
        missCount := 0, minRunTimer := none, pastMinRun := false, restTimer := none, secondTimer := none } := by
  unfold Pump.toFaulted
  rw [Pump.leaveRun_of_not h]

/-! ### Priming -/

/-- Settles O35, by the state of the pump whose sense is asserted. -/
theorem primeSenseBeginsTheRampUp : Obligations.PrimeSenseBeginsTheRampUp := by
  intro k s hrun
  have he := exec_event (i := .primeSenseAsserted k) rfl hrun
  refine ⟨senseAsserted k s, rfl, fun hn => ?_, fun hp => ?_⟩
  · refine he.trans (congrArg (fun t => Host.Outcome.next (follow t)) ?_)
    exact if_neg hn
  · intro e first
    refine he.trans (congrArg (fun t => Host.Outcome.next (follow t)) ?_)
    exact if_pos hp

/-! ### The expiries -/

theorem primeTimerExpires_of_priming {k : PumpIx} {s : State} (h : (s.pump k).state = .priming)
    (ht : (s.pump k).primeTimer.isSome = true) : primeTimerExpires k s = faultPump k .primeTimeout s := by
  unfold primeTimerExpires
  dsimp only
  rw [if_pos ht, if_pos h]

theorem feedbackDueExpires_of_runs {k : PumpIx} {s : State} (h : (s.pump k).state.runs = true)
    (ht : (s.pump k).feedbackTimer.isSome = true) (level : Bool) :
    feedbackDueExpires k level s =
      if level then s.setPump k { s.pump k with feedbackTimer := none, supervised := true } else faultPump k .noFeedback s := by
  unfold feedbackDueExpires
  dsimp only
  rw [if_pos ht, if_pos h]

/-- The level that the expiry carries stands on the pin. -/
theorem withRunFb_bit (k : PumpIx) (level : Bool) (s : State) : (withRunFb k level s).inputs.runFb.getLsbD k = level := by
  unfold withRunFb
  dsimp only
  fin_cases k <;> cases level <;> simp

theorem withRunFb_changes (k : PumpIx) (level : Bool) (s : State) : ∃ i, withRunFb k level s = { s with inputs := i } := ⟨_, rfl⟩

/-- Settles O36, by the timer that expires and the level of the feedback. -/
theorem expiriesFaultThePump : Obligations.ExpiriesFaultThePump := by
  intro k s hrun
  refine ⟨fun hp ht => ?_, fun runFb hr ht => ?_⟩
  · have hx : primeTimerExpires k s = faultPump k .primeTimeout s := primeTimerExpires_of_priming hp ht
    have he : exec (.primeTimerExpiry k) s = .next (follow (faultPump k .primeTimeout s)) := by
      rw [← hx]
      exact exec_event rfl hrun
    refine ⟨_, he, ?_, ?_, ?_, ?_, ?_, fun j hj => ?_, ?_⟩
    · rw [follow_pump, faultPump_pump, Pump.toFaulted_of_not (by rw [hp]; rfl)]
    · rw [follow_player, faultPump_player]
    · rw [follow_drives]
      exact faultPump_duty k _ s
    · rw [follow_valveOpen]
      unfold State.valveOpen
      rw [faultPump_pump, Bool.and_eq_false_iff]
      exact .inr rfl
    · rw [follow_port, faultPump_port]
    · rw [follow_pump, follow_player, faultPump_pump_of_ne hj, faultPump_player_of_ne hj]
      exact ⟨rfl, rfl⟩
    · rw [follow_pumps, follow_players, follow_drives, follow_port]
      rfl
  · have hruns : (s.pump k).state.runs = true := (PumpState.runs_iff _).mpr hr
    have hx : feedbackDueExpires k runFb (withRunFb k runFb s) = if runFb then
        State.setPump k { s.pump k with feedbackTimer := none, supervised := true } (withRunFb k runFb s)
        else faultPump k .noFeedback (withRunFb k runFb s) :=
      feedbackDueExpires_of_runs (s := withRunFb k runFb s) hruns ht runFb
    have he : exec (.feedbackDueExpiry k runFb) s = .next (follow (feedbackDueExpires k runFb (withRunFb k runFb s))) :=
      exec_event rfl hrun
    rw [hx] at he
    have hbit := withRunFb_bit k runFb s
    obtain ⟨i, hi⟩ := withRunFb_changes k runFb s
    rw [hi] at he hbit
    cases runFb with
    | true =>
      rw [if_pos rfl] at he
      refine ⟨_, he, fun _ => ⟨?_, ?_, ?_⟩, fun h => absurd h (by decide), fun j hj => ?_, ?_, ?_⟩
      · rw [follow_pump]
        exact State.pump_setPump_self k _ _
      · rw [follow_players]
        rfl
      · rw [follow_port]
        rfl
      · rw [follow_pump, follow_player]
        exact ⟨State.pump_setPump_of_ne (Ne.symm hj) _ _, rfl⟩
      · rw [follow_inputs]
        exact hbit
      · exact follow_units rfl
    | false =>
      rw [if_neg Bool.false_ne_true] at he
      refine ⟨_, he, fun h => absurd h (by decide), fun _ => ⟨?_, ?_, ?_, ?_, ?_⟩, fun j hj => ?_, ?_, ?_⟩
      · rw [follow_pump, faultPump_pump]
        exact Pump.toFaulted_eq (s.pump k) .noFeedback
      · rw [follow_pump, faultPump_pump]
        exact Pump.keepsWork_toFaulted (s.pump k) .noFeedback
      · rw [follow_player, faultPump_player]
      · rw [follow_drives]
        exact faultPump_duty k _ _
      · rw [follow_port, faultPump_port]
      · rw [follow_pump, follow_player, faultPump_pump_of_ne hj, faultPump_player_of_ne hj]
        exact ⟨rfl, rfl⟩
      · rw [follow_inputs]
        exact hbit
      · exact follow_units rfl

/-! ### The run and rest timers -/

theorem minimumRunExpires_of_runs {k : PumpIx} {s : State} (h : (s.pump k).state.runs = true)
    (ht : (s.pump k).minRunTimer.isSome = true) :
    minimumRunExpires k s = s.setPump k { s.pump k with minRunTimer := none, pastMinRun := true } := by
  unfold minimumRunExpires
  dsimp only
  rw [if_pos ht, h, Bool.or_true]

theorem restTimerExpires_of_resting {k : PumpIx} {s : State} (h : (s.pump k).state = .resting)
    (ht : (s.pump k).restTimer.isSome = true) :
    restTimerExpires k s =
      s.setPump k (if (s.pump k).holdPending then { s.pump k with state := .held, holdPending := false, restTimer := none }
                   else { s.pump k with state := .idle, restTimer := none }) := by
  unfold restTimerExpires
  dsimp only
  rw [if_pos ht, if_pos h]
  split <;> rfl

theorem secondPasses_of_runs {k : PumpIx} {s : State} (h : (s.pump k).state.runs = true) :
    secondPasses k s = s.setPump k (s.pump k).countSecond := if_pos h

/-- Settles O37, by the timer that expires. -/
theorem runAndRestTimersActAtTheirExpiry : Obligations.RunAndRestTimersActAtTheirExpiry := by
  intro k s hrun
  have next {i : Instr} {x y : State} (hx : exec i s = .next (follow x)) (h : x = y) : exec i s = .next (follow y) := by
    rw [← h]
    exact hx
  have hminimum : exec (.minimumRunExpiry k) s = .next (follow (minimumRunExpires k s)) := exec_event rfl hrun
  have hrest : exec (.restTimerExpiry k) s = .next (follow (restTimerExpires k s)) := exec_event rfl hrun
  have hsecond : exec (.runSecond k) s = .next (follow (secondPasses k s)) := exec_event rfl hrun
  refine ⟨fun hr ht => ?_, fun hp ht hh => ?_, fun hp ht hh => ?_, fun hr ha => ?_, fun hr ha => ?_⟩
  · exact next hminimum (minimumRunExpires_of_runs ((PumpState.runs_iff _).mpr hr) ht)
  · refine next hrest ((restTimerExpires_of_resting hp ht).trans ?_)
    rw [hh, if_neg Bool.false_ne_true]
  · refine next hrest ((restTimerExpires_of_resting hp ht).trans ?_)
    rw [hh, if_pos rfl]
  · refine next hsecond ((secondPasses_of_runs ((PumpState.runs_iff _).mpr hr)).trans ?_)
    rw [Pump.countSecond, if_neg (by omega)]
  · refine next hsecond ((secondPasses_of_runs ((PumpState.runs_iff _).mpr hr)).trans ?_)
    rw [Pump.countSecond, if_pos (by omega)]
    rfl

end Sys2Proof.Machine
end

section
/-! STEP_COMPLETION (R84, R88, R89, R92, R95, R105, R111 to R115). -/

namespace Sys2Proof.Machine

open Sys2Proof

set_option Elab.async false

/-! ### How a step completes -/

section
variable (mem : Vector ProfileStep 64) {p : Player} {cur : Fin 64}

/-- An unmarked step is followed by the next of the circle (R105, R111). -/
theorem Player.complete_of_unmarked (hm : (mem[cur]).endMark = false) (hf : p.finish = false) (hr : p.runaway < 63) :
    p.complete mem cur = .goesOn (Player.beginStep mem (cur + 1) { p with runaway := p.runaway + 1 }) := by
  unfold Player.complete
  rw [if_neg (by rw [hm]; decide), if_neg (by rw [hf]; decide), if_neg (by omega)]

/-- An end-marked step of a loop is followed by the play's start (R111, R115). -/
theorem Player.complete_of_looping (hm : (mem[cur]).endMark = true) (hl : p.mode = some .loop) (hf : p.finish = false) :
    p.complete mem cur = .goesOn (Player.beginStep mem (p.start.getD cur) { p with runaway := 0 }) := by
  unfold Player.complete
  rw [if_pos hm, if_pos ⟨hl, hf⟩]

/-- A one-shot play ends with its end-marked step, and any play with its current step where a finish was requested (R112, R113). -/
theorem Player.complete_of_ending (h : ((mem[cur]).endMark = true ∧ p.mode = some .oneShot) ∨ p.finish = true) :
    p.complete mem cur = .ends (Player.idle p.speed) := by
  unfold Player.complete
  rcases h with ⟨hm, ho⟩ | hf
  · rw [if_pos hm, if_neg]
    rintro ⟨hl, _⟩
    exact absurd (ho.symm.trans hl) (by decide)
  · have hn : ¬ (p.mode = some .loop ∧ p.finish = false) := fun h => absurd (hf.symm.trans h.2) (by decide)
    rw [if_neg hn, if_pos hf, ite_self]

/-- The 64th unmarked step is a runaway (R115). -/
theorem Player.complete_of_runaway (hm : (mem[cur]).endMark = false) (hf : p.finish = false) (hr : 63 ≤ p.runaway) :
    p.complete mem cur = .runaway (Player.idle 0) := by
  unfold Player.complete
  rw [if_neg (by rw [hm]; decide), if_neg (by rw [hf]; decide), if_pos (by omega)]

end

section
variable {k : PumpIx} {s : State} {cur : Fin 64} {p : Player}

theorem stepCompletes_of_goesOn (hp : (s.player k).playing = true) (hs : (s.player k).step = some cur)
    (hc : (s.player k).complete s.profile cur = .goesOn p) : stepCompletes k s = s.setPlayer k p := by
  unfold stepCompletes
  simp only [hp, hs, hc]

theorem stepCompletes_of_ends (hp : (s.player k).playing = true) (hs : (s.player k).step = some cur)
    (hc : (s.player k).complete s.profile cur = .ends p) : stepCompletes k s = playEnded k (s.setPlayer k p) := by
  unfold stepCompletes
  simp only [hp, hs, hc]

theorem stepCompletes_of_runaway (hp : (s.player k).playing = true) (hs : (s.player k).step = some cur)
    (hc : (s.player k).complete s.profile cur = .runaway p) : stepCompletes k s = playRanAway k (s.setPlayer k p) := by
  unfold stepCompletes
  simp only [hp, hs, hc]

end

/-! ### The controller's act on a report -/

section
variable {k : PumpIx} {s : State}

theorem playEnded_of_rampUp (h : (s.pump k).state = .rampUp) (hf : (s.pump k).finishing = false) :
    playEnded k s = enterRunning k s := by
  unfold playEnded
  simp only [h, hf]
  rfl

theorem playEnded_of_finishing (h : (s.pump k).state = .rampUp ∨ (s.pump k).state = .running)
    (hf : (s.pump k).finishing = true) : playEnded k s = enterRampDown k s := by
  unfold playEnded
  rcases h with h | h <;> simp only [h, hf, if_true]

theorem playEnded_of_rampDown (h : (s.pump k).state = .rampDown) : playEnded k s = enterResting k s := by
  unfold playEnded
  simp only [h]

theorem playRanAway_of_playing (h : (s.pump k).state = .rampUp ∨ (s.pump k).state = .running ∨ (s.pump k).state = .rampDown) :
    playRanAway k s = faultPump k .profileFault s := by
  unfold playRanAway
  rcases h with h | h | h <;> simp only [h]

/-- What the report of an end makes of a pump (R89, R84, R92). -/
theorem playEnded_cases (k : PumpIx) (s : State) :
    playEnded k s = s ∨ playEnded k s = enterRunning k s ∨ playEnded k s = enterRampDown k s ∨ playEnded k s = enterResting k s := by
  unfold playEnded
  split
  · split
    · exact .inr (.inr (.inl rfl))
    · exact .inr (.inl rfl)
  · split
    · exact .inr (.inr (.inl rfl))
    · exact .inl rfl
  · exact .inr (.inr (.inr rfl))
  all_goals exact .inl rfl

theorem playRanAway_cases (k : PumpIx) (s : State) :
    playRanAway k s = s ∨ playRanAway k s = faultPump k .profileFault s := by
  unfold playRanAway
  split
  · exact .inr rfl
  · exact .inr rfl
  · exact .inr rfl
  all_goals exact .inl rfl

/-- On entry to RUNNING the pump changes its state alone (R89). -/
theorem enterRunning_pump_self (k : PumpIx) (s : State) : (enterRunning k s).pump k = { s.pump k with state := .running } := by
  unfold enterRunning
  dsimp only
  split
  · exact State.pump_setPump_self k _ s
  · exact State.pump_setPump_self k _ s

theorem enterRunning_of_ne {j : PumpIx} (h : j ≠ k) (s : State) :
    (enterRunning k s).pump j = s.pump j ∧ (enterRunning k s).player j = s.player j := by
  unfold enterRunning
  dsimp only
  split
  · exact ⟨State.pump_setPump_of_ne (Ne.symm h) _ s, State.player_setPlayer_of_ne (Ne.symm h) _ _⟩
  · exact ⟨State.pump_setPump_of_ne (Ne.symm h) _ s, rfl⟩

/-- Without a run profile the player keeps what it holds (R89). -/
theorem enterRunning_player_of_none (h : (s.pointers[k]).run = none) : (enterRunning k s).player k = s.player k := by
  unfold enterRunning
  simp only [State.setPump_pointers, h]
  rfl

/-- With a run profile its play begins in loop mode (R89, R108). -/
theorem enterRunning_player_of_some {i : Fin 64} (h : (s.pointers[k]).run = some i) :
    (enterRunning k s).player k = Player.beginPlay s.profile (s.pointers[k]).rate .loop i := by
  unfold enterRunning
  simp only [State.setPump_pointers, h]
  exact State.player_setPlayer_self k _ _

end

/-! ### What a completion leaves -/

/-- The pump after a completion: as it stood, or what one of the four reports makes of it. -/
theorem stepCompletes_pump (k : PumpIx) (s : State) :
    (stepCompletes k s).pump k = s.pump k ∨ (stepCompletes k s).pump k = { s.pump k with state := .running } ∨
      (stepCompletes k s).pump k = { (s.pump k).leaveRun with state := .rampDown } ∨
      (stepCompletes k s).pump k = (s.pump k).toResting ∨ (stepCompletes k s).pump k = (s.pump k).toFaulted .profileFault := by
  cases hp : (s.player k).playing with
  | false => exact .inl (by rw [stepCompletes_of_not (.inl hp)])
  | true =>
    cases hs : (s.player k).step with
    | none => exact .inl (by rw [stepCompletes_of_not (.inr hs)])
    | some cur =>
      obtain ⟨p, _, h⟩ | ⟨p, _, h⟩ | ⟨p, _, h⟩ := stepCompletes_of_playing hp hs
      · exact .inl (by rw [h]; rfl)
      · rw [h]
        obtain h' | h' | h' | h' := playEnded_cases k (s.setPlayer k p) <;> rw [h']
        · exact .inl rfl
        · exact .inr (.inl (enterRunning_pump_self k _))
        · exact .inr (.inr (.inl (enterRampDown_pump_self k _)))
        · exact .inr (.inr (.inr (.inl (enterResting_pump_self k _))))
      · rw [h]
        obtain h' | h' := playRanAway_cases k (s.setPlayer k p) <;> rw [h']
        · exact .inl rfl
        · exact .inr (.inr (.inr (.inr (faultPump_pump _ _ _))))

/-- A completion touches its own pump and player alone. -/
theorem stepCompletes_of_ne {j k : PumpIx} (hj : j ≠ k) (s : State) :
    (stepCompletes k s).pump j = s.pump j ∧ (stepCompletes k s).player j = s.player j := by
  have hset (p : Player) : (s.setPlayer k p).player j = s.player j := State.player_setPlayer_of_ne (Ne.symm hj) p s
  cases hp : (s.player k).playing with
  | false => rw [stepCompletes_of_not (.inl hp)]; exact ⟨rfl, rfl⟩
  | true =>
    cases hs : (s.player k).step with
    | none => rw [stepCompletes_of_not (.inr hs)]; exact ⟨rfl, rfl⟩
    | some cur =>
      obtain ⟨p, _, h⟩ | ⟨p, _, h⟩ | ⟨p, _, h⟩ := stepCompletes_of_playing hp hs
      · rw [h]
        exact ⟨rfl, hset p⟩
      · rw [h]
        obtain h' | h' | h' | h' := playEnded_cases k (s.setPlayer k p) <;> rw [h']
        · exact ⟨rfl, hset p⟩
        · rw [(enterRunning_of_ne hj _).1, (enterRunning_of_ne hj _).2]
          exact ⟨rfl, hset p⟩
        · rw [enterRampDown_pump_of_ne hj, enterRampDown_player_of_ne hj]
          exact ⟨rfl, hset p⟩
        · rw [enterResting_pump_of_ne hj, enterResting_player_of_ne hj]
          exact ⟨rfl, hset p⟩
      · rw [h]
        obtain h' | h' := playRanAway_cases k (s.setPlayer k p) <;> rw [h']
        · exact ⟨rfl, hset p⟩
        · rw [faultPump_pump_of_ne hj, faultPump_player_of_ne hj]
          exact ⟨rfl, hset p⟩

/-- A pump that does not run keeps its work where it stands. -/
theorem Pump.keepsWork_self_of_not {p : Pump} (h : p.state.runs = false) : p.keepsWork p := by
  refine Pump.keepsWork_of_eq ?_ ?_ <;> rw [Pump.countDue_of_not (by simp [Pump.secondDue, h])]

/-- The second complete as a pump leaves its run counts (R99). -/
theorem stepCompletes_keepsWork (k : PumpIx) (s : State)
    (h : ((stepCompletes k s).pump k).state = .rampDown ∨ ((stepCompletes k s).pump k).state = .faulted) :
    (s.pump k).keepsWork ((stepCompletes k s).pump k) := by
  obtain e | e | e | e | e := stepCompletes_pump k s <;> rw [e] at h ⊢
  · exact Pump.keepsWork_self_of_not (by rcases h with h | h <;> rw [h] <;> rfl)
  · rcases h with h | h <;> cases h
  · exact Pump.keepsWork_of_eq rfl rfl
  · rcases h with h | h <;> cases h
  · exact Pump.keepsWork_toFaulted _ _

/-- Settles O38, by how the step completes and what the pump's controller makes of the report. -/
theorem stepCompletionGoesOnOrEndsThePlay : Obligations.StepCompletionGoesOnOrEndsThePlay := by
  refine ⟨fun k s cur begins tick hrun hp hs hstart htick hf => ⟨fun hm hr => ⟨cur + 1, ?_, ?_⟩, fun hm hl => ?_⟩,
    fun k s cur hrun hp hs => ?_⟩
  · rw [Fin.val_add]
    rfl
  · refine (exec_event (i := .stepCompletion k) rfl hrun).trans (congrArg (fun t => Host.Outcome.next (follow t)) ?_)
    refine (stepCompletes_of_goesOn hp hs (Player.complete_of_unmarked s.profile hm hf hr)).trans ?_
    unfold Player.beginStep
    simp only [htick, Option.getD_some]
  · refine (exec_event (i := .stepCompletion k) rfl hrun).trans (congrArg (fun t => Host.Outcome.next (follow t)) ?_)
    refine (stepCompletes_of_goesOn hp hs (Player.complete_of_looping s.profile hm hl hf)).trans ?_
    unfold Player.beginStep
    simp only [htick, hstart, Option.getD_some]
  · have he : exec (.stepCompletion k) s = .next (follow (stepCompletes k s)) := exec_event rfl hrun
    refine ⟨_, he, ?_⟩
    intro ends down
    have hends (h : ends) : stepCompletes k s = playEnded k (s.setPlayer k (Player.idle (s.player k).speed)) :=
      stepCompletes_of_ends hp hs (Player.complete_of_ending s.profile h)
    refine ⟨fun h hup hf hn => ?_, fun i h hup hf hn => ?_, fun h hr hf => ?_, fun h hd => ?_, fun hm hf hr hst => ?_, fun h => ?_,
      fun j hj => ?_, ?_⟩
    · rw [follow_pump, follow_player, hends h, playEnded_of_rampUp (by exact hup) (by exact hf), enterRunning_pump_self,
        enterRunning_player_of_none (by exact hn), State.player_setPlayer_self]
      exact ⟨rfl, rfl⟩
    · rw [follow_pump, follow_player, hends h, playEnded_of_rampUp (by exact hup) (by exact hf), enterRunning_pump_self,
        enterRunning_player_of_some (by exact hn)]
      exact ⟨rfl, rfl, rfl, rfl, rfl⟩
    · change ((follow (stepCompletes k s)).pump k).state = _ ∧ ((follow (stepCompletes k s)).pump k).finishing = _ ∧
        ((follow (stepCompletes k s)).pump k).minRunTimer = _ ∧ ((follow (stepCompletes k s)).pump k).feedbackTimer = _ ∧
        ((follow (stepCompletes k s)).pump k).holdPending = _ ∧ ((follow (stepCompletes k s)).player k).start = _ ∧
        ((follow (stepCompletes k s)).player k).mode = _ ∧ ((follow (stepCompletes k s)).player k).speed = _ ∧
        ((follow (stepCompletes k s)).player k).tick = _
      rw [follow_pump, follow_player, hends h, playEnded_of_finishing (by exact hr) (by exact hf), enterRampDown_pump_self, enterRampDown_player_self,
        Pump.leaveRun_eq]
      exact ⟨rfl, rfl, rfl, rfl, rfl, rfl, rfl, rfl, rfl⟩
    · rw [follow_pump, follow_player, follow_drives, hends h, playEnded_of_rampDown (by exact hd), enterResting_pump_self,
        enterResting_player, enterResting_duty]
      exact ⟨rfl, rfl, rfl, rfl⟩
    · rw [follow_pump, follow_player, follow_drives, follow_port,
        stepCompletes_of_runaway hp hs (Player.complete_of_runaway s.profile hm hf hr), playRanAway_of_playing (by exact hst), faultPump_pump,
        faultPump_player, faultPump_duty]
      exact ⟨rfl, rfl, rfl, rfl, flag_raise_self (f := .pumpFault) (by decide) _⟩
    · rw [follow_pump] at h ⊢
      exact stepCompletes_keepsWork k s h
    · rw [follow_pump, follow_player]
      exact stepCompletes_of_ne hj s
    · obtain ⟨_, _, _, _, hx⟩ := stepCompletes_changes k s
      rw [follow_pumps, follow_players, follow_drives, follow_port, hx]

end Sys2Proof.Machine
end

section
/-! The output pins (R101, R102, R121, R124, R139, R140, R151, R152, R155, R165, R172, R173, R178). -/

namespace Sys2Proof.Machine

open Sys2Proof

set_option Elab.async false

/-! ### Drives and valves -/

theorem State.valveOpen_iff {s : State} (h : s.cond = .running) (k : PumpIx) :
    s.valveOpen k = true ↔ (s.pump k).state = .priming := by
  unfold State.valveOpen
  rw [State.isRunning_of_running h, Bool.true_and, decide_eq_true_eq]

/-- The speed that a pump is driven at is its player's in RAMP_UP, RUNNING and RAMP_DOWN, and 0 in the others (R101). -/
theorem State.driveSpeed_eq (s : State) (k : PumpIx) :
    s.driveSpeed k =
      if (s.pump k).state = .rampUp ∨ (s.pump k).state = .running ∨ (s.pump k).state = .rampDown then (s.player k).speed else 0 := by
  unfold State.driveSpeed
  cases (s.pump k).state <;> rfl

/-- A station strapped for four or more is of variable speed (R101). -/
theorem StrapLevels.variableSpeed_iff (l : StrapLevels) : l.variableSpeed = true ↔ 4 ≤ l.pumps.val := decide_eq_true_iff

theorem State.driveOn_of_fixed {s : State} (h : s.cond = .running) (hp : s.straps.pumps.val < 4) (k : PumpIx) :
    s.driveOn k = true ↔ 0 < s.driveSpeed k := by
  have hfixed : ¬ s.straps.variableSpeed = true := fun hv => absurd ((StrapLevels.variableSpeed_iff _).mp hv) (by omega)
  unfold State.driveOn
  rw [State.isRunning_of_running h, Bool.true_and, if_neg hfixed, decide_eq_true_eq]

theorem State.driveOn_of_variable {s : State} (h : s.cond = .running) (hp : 4 ≤ s.straps.pumps.val) (k : PumpIx) :
    s.driveOn k = true ↔ s.drives.position < s.drives.duty[k] := by
  unfold State.driveOn
  rw [State.isRunning_of_running h, Bool.true_and, if_pos ((StrapLevels.variableSpeed_iff _).mpr hp), decide_eq_true_eq]

/-- A period that ends takes up the present duty (R101). -/
theorem runDrives_duty {counts : Nat} {s : State} (h : 1000 ≤ s.drives.position + counts) (k : PumpIx) :
    (runDrives counts s).duty[k] = 10 * s.driveSpeed k := by
  unfold runDrives
  simp only [h, if_true]
  fin_cases k <;> rfl

theorem runDrives_of_within {counts : Nat} {s : State} (h : s.drives.position + counts < 1000) :
    runDrives counts s = { duty := s.drives.duty, position := s.drives.position + counts } := by
  unfold runDrives
  rw [if_neg (by omega), Nat.mod_eq_of_lt h]

/-! ### The line -/

/-- A cell of the arbitration word is driven where its bit is 0 (R152, R178). -/
theorem wordBit_cell (w : BitVec 7) (n : Nat) : (!wordBit w n) = decide (w.toNat / 2 ^ (6 - n) % 2 = 0) := by
  rw [wordBit_eq, ← decide_not]
  exact decide_eq_decide.mpr (by omega)

theorem State.lineDriven_of_no_frame {s : State} (h : s.cond = .running) (ht : s.line.tx = none) :
    s.lineDriven = s.arb.driven := by
  unfold State.lineDriven
  rw [State.isRunning_of_running h, ht]
  rfl

theorem State.lineDriven_of_frame {s : State} {tx : Transmission} (h : s.cond = .running) (ht : s.line.tx = some tx)
    (ha : s.arb.driven = false) : s.lineDriven = tx.driven := by
  unfold State.lineDriven
  rw [State.isRunning_of_running h, ht, ha]
  exact Bool.or_false _

theorem Arbiter.driven_of_contending {a : Arbiter} {w : Window} (hw : a.window = some w) (hp : a.part = .contending)
    (he : w.elapsed < 7000) : a.driven = !wordBit w.word (w.elapsed / 1000) := by
  unfold Arbiter.driven
  simp only [hw, hp, he, decide_true, Bool.true_and]

/-- After the seventh cell, after a withdrawal and outside a window the word is not on the line. -/
theorem Arbiter.driven_of_not {a : Arbiter}
    (h : a.part ≠ .contending ∨ ∀ w, a.window = some w → 7000 ≤ w.elapsed) : a.driven = false := by
  unfold Arbiter.driven
  cases hw : a.window with
  | none => rfl
  | some w =>
    rcases h with h | h
    · simp [h]
    · simp [Nat.not_lt.mpr (h w hw)]

/-- The eleven cells of a character: the start bit driven, the data bits least significant first and released for 1, a parity bit
that makes the released ones even in number, and the stop bit released (R140). -/
theorem readingsOf_driven : ∀ (c : Byte) (n : Fin 11),
    (!(readingsOf c).getLsbD n.val) =
      if n.val = 0 then true else if n.val ≤ 8 then !c.getLsbD (n.val - 1)
      else if n.val = 9 then decide (((List.range 8).countP (fun i => c.getLsbD i)) % 2 = 0) else false := by
  decide +kernel

theorem Transmission.driven_of_char {tx : Transmission} {c : Byte} (h : tx.chars[tx.elapsed / 352]? = some c) :
    tx.driven = !(readingsOf c).getLsbD (tx.elapsed % 352 / 32) := by
  unfold Transmission.driven
  simp only [h]

/-- After its last character the line is released. -/
theorem Transmission.driven_of_end {tx : Transmission} (h : 352 * tx.chars.length ≤ tx.elapsed) : tx.driven = false := by
  have hnone : tx.chars[tx.elapsed / 352]? = none := List.getElem?_eq_none_iff.mpr (by omega)
  unfold Transmission.driven
  simp only [hnone]

/-! ### ATTN, CHECK and SDO -/

theorem State.checkLow_iff (s : State) : s.checkLow = true ↔ s.cond = .running ∧ s.line.check.pulse.isSome = true := by
  unfold State.checkLow State.isRunning
  rw [Bool.and_eq_true, decide_eq_true_eq]

theorem State.sdoBit_of_answer {s : State} {cs : List Byte} (h : s.port.selected = true) (ha : s.port.answer = some cs) {i n : Nat}
    (hn : n < 8) : s.sdoBit (8 * i + n) = some ((cs.getD i 0).getLsbD (7 - n)) := by
  unfold State.sdoBit State.sdo
  rw [if_pos h, ha, show (8 * i + n) / 8 = i by omega, show (8 * i + n) % 8 = n by omega]
  rfl

theorem State.sdoBit_of_released {s : State} (h : s.port.selected = false ∨ s.port.answer = none) (n : Nat) : s.sdoBit n = none := by
  unfold State.sdoBit State.sdo
  rcases h with h | h
  · rw [if_neg (by rw [h]; decide)]
    rfl
  · rw [h]
    split <;> rfl

/-- Settles O39, pin by pin. -/
theorem outputPinsFollowTheState : Obligations.OutputPinsFollowTheState := by
  refine ⟨fun k counts s hrun => ⟨State.valveOpen_iff hrun k, fun hp => ?_, fun hp => State.driveOn_of_variable hrun hp k,
      fun h => ⟨rfl, ?_⟩, fun h => runDrives_of_within h⟩,
    fun s w hrun ht hw => ⟨fun hp he => ?_, fun h => ?_⟩, fun f s => ⟨fun hrun => ?_, fun h => ?_, fun h => ?_, rfl⟩,
    fun s tx hrun ht ha => ⟨fun c hc => ?_, fun hend => ?_⟩, fun s => ⟨State.checkLow_iff s, rfl, rfl⟩,
    fun s cs i n hn => ⟨fun h ha => State.sdoBit_of_answer h ha hn, fun h => State.sdoBit_of_released h _⟩⟩
  · rw [State.driveOn_of_fixed hrun hp, State.driveSpeed_eq]
    split <;> simp_all
  · rw [runDrives_duty h, State.driveSpeed_eq]
    split <;> rfl
  · rw [State.lineDriven_of_no_frame hrun ht, Arbiter.driven_of_contending hw hp he, wordBit_cell]
  · rw [State.lineDriven_of_no_frame hrun ht]
    refine Arbiter.driven_of_not (h.imp_right fun h w' hw' => ?_)
    rw [hw] at hw'
    cases hw'
    exact h
  · exact attnLow_iff_of_running hrun
  · unfold State.attnLow
    rw [h]
  · unfold State.attnLow
    rcases h with h | ⟨κ, h⟩ <;> rw [h]
  · have harb : s.arb.driven = false := by
      refine Arbiter.driven_of_not (ha.imp_right fun h w hw => ?_)
      rw [h] at hw
      cases hw
    have hn : tx.elapsed % 352 / 32 < 11 := by omega
    rw [State.lineDriven_of_frame hrun ht harb, Transmission.driven_of_char hc]
    exact readingsOf_driven c ⟨_, hn⟩
  · have harb : s.arb.driven = false := by
      refine Arbiter.driven_of_not (ha.imp_right fun h w hw => ?_)
      rw [h] at hw
      cases hw
    rw [State.lineDriven_of_frame hrun ht harb, Transmission.driven_of_end hend]

end Sys2Proof.Machine
end

section
/-! The taking of the commands of the service port (R162, R165 to R168). -/

namespace Sys2Proof.Machine

open Sys2Proof

set_option Elab.async false

/-- Every service command has its work. -/
theorem exists_serviceWork_of_code {i : Instr} {code : Byte} (h : i.serviceCode = some code) : ∃ w, serviceWork i = some w := by
  cases i <;> first
    | exact ⟨_, rfl⟩
    | cases h

/-- Nothing is taken outside a transaction, after another command in it, or while a reset lasts. -/
theorem takeCommand_of_untaken {s : State} (h : s.port.ready = false ∨ ∃ κ, s.cond = .reset κ)
    (work : State → State × Answer) : takeCommand work s = s := by
  unfold takeCommand
  obtain h | ⟨κ, h⟩ := h
  · simp [h]
  · simp [h]

theorem port_ready_eq_false {p : Port} (h : p.selected = false ∨ p.answer.isSome = true) : p.ready = false := by
  cases ha : p.answer <;> simp_all [Port.ready]

theorem takeReadStation_of_untaken {s : State} (h : s.port.ready = false ∨ ∃ κ, s.cond = .reset κ) :
    takeReadStation s = s := by
  unfold takeReadStation
  rw [if_neg, takeCommand_of_untaken h]
  obtain h | ⟨κ, h⟩ := h <;> simp [h]

/-- A service command that is not taken leaves its pins alone behind. -/
theorem exec_service_of_untaken {i : Instr} {w : State → State × Answer} (hi : serviceWork i = some w) {s : State}
    (h : s.port.ready = false ∨ ∃ κ, s.cond = .reset κ) : exec i s = .next { s with inputs := s.pinsAfter i } := by
  have untaken (work : State → State × Answer) : takeCommand work s = s := takeCommand_of_untaken h work
  cases i <;> cases hi
  case unknown c => simp only [exec, execUnknown, untaken, ite_self, State.pinsAfter]
  case readStation => exact congrArg _ (takeReadStation_of_untaken h)
  case readEntry k p => exact congrArg _ (takeCommand_of_untaken (s := { s with inputs := p }) h _)
  all_goals exact congrArg _ (untaken _)

/-- Settles O43: TRANSACTION_BEGIN and TRANSACTION_END by the part's condition, and no service command is taken outside a
transaction, after another or in a reset. -/
theorem transactionsTakeOneCommandEach : Obligations.TransactionsTakeOneCommandEach := by
  refine ⟨fun s => ⟨fun h => ?_, fun κ h => ?_, rfl⟩, fun c code s hc h => ?_⟩
  · simp only [exec, execTransactionBegin]
    cases hs : s.cond with
    | reset κ => exact absurd hs (h κ)
    | _ => rfl
  · simp only [exec, execTransactionBegin, h]
  · obtain ⟨w, hw⟩ := exists_serviceWork_of_code hc
    refine exec_service_of_untaken hw ?_
    obtain h | h | h := h
    · exact .inl (port_ready_eq_false (.inl h))
    · exact .inl (port_ready_eq_false (.inr h))
    · exact .inr h

/-! ### The order of the statuses (R168) -/

theorem port_ready_of {p : Port} (hs : p.selected = true) (ha : p.answer = none) : p.ready = true := by
  simp [Port.ready, hs, ha]

theorem takeCommand_of_strapReading {s : State} (h : s.port.ready = true) (hc : s.cond = .strapReading)
    (work : State → State × Answer) : takeCommand work s = giveAnswer .busy s := by
  simp [takeCommand, h, hc]

theorem takeCommand_of_strapFault {s : State} (h : s.port.ready = true) (hc : s.cond = .strapFault)
    (work : State → State × Answer) : takeCommand work s = giveAnswer .fault s := by
  simp [takeCommand, h, hc]

/-- In STRAP FAULT every command but READ STATION is a taking of its own work. -/
theorem exec_of_serviceWork_of_ne {i : Instr} {w : State → State × Answer} (h : serviceWork i = some w)
    (hi : WellFormed i = true) (hne : i ≠ .readStation) (s : State) :
    exec i s = .next (takeCommand w { s with inputs := s.pinsAfter i }) := by
  cases i <;> cases h
  case unknown c =>
    have hc : (parameterCount c).isNone = true := hi
    simp [exec, execUnknown, hc, State.pinsAfter]
  case readStation => exact absurd rfl hne
  all_goals rfl

theorem bitAt_stnHiFault (l : StrapLevels) : bitAt 0 l.stnHiFault = if 2 ≤ l.stnHi.val then 1 else 0 := by
  simp [bitAt, StrapLevels.stnHiFault]

theorem bitAt_roleFault (l : StrapLevels) : bitAt 1 l.roleFault = if 5 ≤ l.role.val then 2 else 0 := by
  simp [bitAt, StrapLevels.roleFault]

/-- A command is taken while its work is judged by its own rule, in the pins it carries. -/
theorem exec_of_takes {i : Instr} {w : State → State × Answer} (h : serviceWork i = some w) (hi : WellFormed i = true)
    {s : State} (hs : s.takes) :
    exec i s = .next (giveAnswer (w { s with inputs := s.pinsAfter i }).2 (w { s with inputs := s.pinsAfter i }).1) := by
  have hc : s.cond ≠ .strapFault := by
    rw [hs.1]
    nofun
  rw [exec_of_serviceWork h hi hc, takeCommand_of_takes (by exact hs)]

/-- Settles O44: BUSY while the straps are read, FAULT or the fault form of the station record in STRAP FAULT, UNKNOWN for a
character that names no command. -/
theorem statusIsJudgedByConditionFirst : Obligations.StatusIsJudgedByConditionFirst := by
  refine ⟨fun code s h => ?_, fun c code s hwf hc hsel hans => ?_⟩
  · have hn : (parameterCount code).isNone = false := by
      obtain ⟨_, h⟩ := Option.isSome_iff_exists.mp h
      simp [h]
    simp only [exec, execUnknown, hn]
    rfl
  · have hready : s.port.ready = true := port_ready_of hsel hans
    obtain ⟨w, hw⟩ := exists_serviceWork_of_code hc
    refine ⟨fun hs => ?_, fun hs hne => ?_, fun hs heq => ?_, fun hs heq => ?_⟩
    · rw [exec_of_serviceWork hw hwf (by simp [hs]), takeCommand_of_strapReading (by exact hready) (by exact hs)]
      rfl
    · rw [exec_of_serviceWork_of_ne hw hwf hne, takeCommand_of_strapFault (by exact hready) (by exact hs)]
      rfl
    · subst heq
      have htake : takeReadStation s = giveAnswer (.ok (faultRecord s)) s := by
        simp [takeReadStation, hready, hs]
      have hrecord : exec .readStation s = .next (s.answering (0xA0 :: faultRecord s)) := congrArg _ htake
      rw [hrecord, faultRecord, bitAt_stnHiFault, bitAt_roleFault]
      rfl
    · subst heq
      cases hw
      rw [exec_of_takes rfl hwf ⟨hs, hsel, hans⟩]
      rfl

end Sys2Proof.Machine
end

section
/-! The commands that write the table, the profiles and the counters, and READ FLAG CHANGES (R15, R21, R117, R118, R126, R145). -/

namespace Sys2Proof.Machine

open Sys2Proof

set_option Elab.async false

/-! ### Parameters -/

theorem runStartParameter_of_ff : runStartParameter 0xFF = some none := rfl

theorem runStartParameter_of_eq {c : Byte} {i : Fin 64} (h : c.toNat = i.val) : runStartParameter c = some (some i) := by
  have hne : c ≠ 0xFF := by
    rintro rfl
    have : (0xFF : Byte).toNat = 255 := rfl
    omega
  rw [runStartParameter, if_neg hne, stepParameter_of_eq h]
  rfl

theorem runStartParameter_of_gt {c : Byte} (h : 63 < c.toNat) (hne : c ≠ 0xFF) : runStartParameter c = none := by
  rw [runStartParameter, if_neg hne, stepParameter_of_gt h]
  rfl

theorem endMarkParameter_of_le {c : Byte} (h : c.toNat ≤ 1) : endMarkParameter c = some (decide (c.toNat = 1)) := by
  obtain rfl | rfl : c = 0 ∨ c = 1 := by bv_omega
  · rfl
  · rfl

theorem endMarkParameter_of_gt {c : Byte} (h : 1 < c.toNat) : endMarkParameter c = none := by
  have h₀ : c ≠ 0 := by bv_omega
  have h₁ : c ≠ 1 := by bv_omega
  rw [endMarkParameter, if_neg h₀, if_neg h₁]

/-! ### READ FLAG CHANGES (R21) -/

/-- Settles O46: the record of the flag changes is formed, then the queue and the overrun mark are cleared. -/
theorem readFlagChangesEmptiesTheQueue : Obligations.ReadFlagChangesEmptiesTheQueue := by
  intro s hs place
  rw [exec_of_takes rfl rfl hs]
  have hplace : flagPlace = place := by
    funext q
    cases q <;> rfl
  rw [← hplace]
  rfl

/-! ### WRITE STEP and WRITE POINTERS (R117, R118) -/

theorem State.anyPlaying_iff (s : State) : s.anyPlaying = true ↔ ∃ k, (s.player k).playing = true := by
  simp [State.anyPlaying, pumpList, Fin.exists_fin_succ]

theorem State.anyPlaying_eq_false {s : State} (h : ∀ k, (s.player k).playing = false) : s.anyPlaying = false := by
  rw [Bool.eq_false_iff, ne_eq, State.anyPlaying_iff]
  rintro ⟨k, hk⟩
  rw [h k] at hk
  cases hk

theorem workWriteStep_of_range {ix sp h m : Byte} (hr : 63 < ix.toNat ∨ 100 < sp.toNat ∨ h = 0 ∨ 1 < m.toNat) (s : State) :
    workWriteStep ix sp h m s = (s, .range) := by
  simp only [workWriteStep]
  split
  · next j e hj he =>
    rw [if_pos]
    obtain hr | hr | hr | hr := hr
    · rw [stepParameter_of_gt hr] at hj
      cases hj
    · exact .inl hr
    · exact .inr hr
    · rw [endMarkParameter_of_gt hr] at he
      cases he
  · rfl

theorem workWriteStep_of_valid {ix sp h m : Byte} {j : Fin 64} (hix : ix.toNat = j.val) (hsp : sp.toNat ≤ 100) (hh : h ≠ 0)
    (hm : m.toNat ≤ 1) (s : State) :
    workWriteStep ix sp h m s = if s.anyPlaying then (s, .busy)
      else ({ s with profile := s.profile.set j { speed := sp.toNat, hold := h.toNat, endMark := decide (m.toNat = 1) } }, .ok []) := by
  have hr : ¬ (100 < sp.toNat ∨ h = 0) := by
    rintro (hr | hr)
    · omega
    · exact hh hr
  simp only [workWriteStep, stepParameter_of_eq hix, endMarkParameter_of_le hm, if_neg hr]

theorem workWritePointers_of_range {k u r d q : Byte}
    (hr : 3 < k.toNat ∨ 63 < u.toNat ∨ 63 < d.toNat ∨ (63 < r.toNat ∧ r ≠ 0xFF) ∨ q = 0 ∨ 8 < q.toNat) (s : State) :
    workWritePointers k u r d q s = (s, .range) := by
  simp only [workWritePointers]
  split
  · next j up run down hk hu hrun hd =>
    rw [if_pos]
    obtain hr | hr | hr | hr | hr | hr := hr
    · rw [pumpParameter_of_gt hr] at hk
      cases hk
    · rw [stepParameter_of_gt hr] at hu
      cases hu
    · rw [stepParameter_of_gt hr] at hd
      cases hd
    · rw [runStartParameter_of_gt hr.1 hr.2] at hrun
      cases hrun
    · exact .inl (congrArg BitVec.toNat hr)
    · exact .inr hr
  · rfl

theorem workWritePointers_of_valid {k u r d q : Byte} {j : PumpIx} {up down : Fin 64} {run : Option (Fin 64)}
    (hk : k.toNat = j.val) (hu : u.toNat = up.val) (hd : d.toNat = down.val)
    (hrun : run = none ∧ r = 0xFF ∨ ∃ i, run = some i ∧ r.toNat = i.val) (hq : 1 ≤ q.toNat) (hq' : q.toNat ≤ 8) (s : State) :
    workWritePointers k u r d q s = if (s.player j).playing then (s, .busy)
      else ({ s with pointers := s.pointers.set j { up := up, run := run, down := down, rate := q.toNat } }, .ok []) := by
  have hparam : runStartParameter r = some run := by
    obtain ⟨rfl, rfl⟩ | ⟨i, rfl, hi⟩ := hrun
    · exact runStartParameter_of_ff
    · exact runStartParameter_of_eq hi
  have hrate : ¬ (q.toNat = 0 ∨ 8 < q.toNat) := by omega
  simp only [workWritePointers, pumpParameter_of_eq hk, stepParameter_of_eq hu, stepParameter_of_eq hd, hparam, if_neg hrate]

theorem exec_writeStep {s : State} (hs : s.takes) (ix sp h m : Byte) :
    exec (.writeStep ix sp h m) s =
      .next (giveAnswer (workWriteStep ix sp h m s).2 (workWriteStep ix sp h m s).1) :=
  exec_of_takes rfl rfl hs

theorem exec_writePointers {s : State} (hs : s.takes) (k u r d q : Byte) :
    exec (.writePointers k u r d q) s =
      .next (giveAnswer (workWritePointers k u r d q s).2 (workWritePointers k u r d q s).1) :=
  exec_of_takes rfl rfl hs

/-- Settles O47: each write is refused out of range, then while a player in its way is PLAYING, and otherwise takes its values. -/
theorem profileWritesAreJudgedRangeThenBusy : Obligations.ProfileWritesAreJudgedRangeThenBusy := by
  refine ⟨fun ix sp h m s hs => ⟨fun hr => ?_, fun j hix hsp hh hm => ⟨fun hp => ?_, fun hp => ?_⟩⟩,
    fun k u r d q s hs => ⟨fun hr => ?_, fun j up down run hk hu hd hrun hq hq' => ⟨fun hp => ?_, fun hp => ?_⟩⟩⟩
  · rw [exec_writeStep hs, workWriteStep_of_range hr]
    rfl
  · rw [exec_writeStep hs, workWriteStep_of_valid hix hsp hh hm, if_pos (s.anyPlaying_iff.mpr hp)]
    rfl
  · rw [exec_writeStep hs, workWriteStep_of_valid hix hsp hh hm, State.anyPlaying_eq_false hp]
    rfl
  · rw [exec_writePointers hs, workWritePointers_of_range hr]
    rfl
  · rw [exec_writePointers hs, workWritePointers_of_valid hk hu hd hrun hq hq', if_pos hp]
    rfl
  · rw [exec_writePointers hs, workWritePointers_of_valid hk hu hd hrun hq hq', hp]
    rfl

/-! ### FORGET ENTRY and CLEAR COUNTERS (R15, R126, R145) -/

theorem clearOverflows_getElem (v : Vector Probe 6) (p : Fin 6) : (clearOverflows v)[p] = { v[p] with overflow := false } := by
  fin_cases p <;> rfl

theorem exec_forgetEntry {s : State} (hs : s.takes) (k : Byte) :
    exec (.forgetEntry k) s = .next (giveAnswer (workForgetEntry k s).2 (workForgetEntry k s).1) :=
  exec_of_takes rfl rfl hs

theorem workForgetEntry_of_eq {k : Byte} {j : Station} (h : k.toNat = j.val) (s : State) :
    workForgetEntry k s = if (s.entry j).status = .lost then (s.setEntry j Entry.blank, .ok []) else (s, .range) := by
  simp only [workForgetEntry, stationParameter_of_eq h]

theorem workForgetEntry_of_gt {k : Byte} (h : 15 < k.toNat) (s : State) : workForgetEntry k s = (s, .range) := by
  simp only [workForgetEntry, stationParameter_of_gt h]

/-- Settles O51: FORGET ENTRY empties a LOST entry of another station alone; CLEAR COUNTERS clears the counters and the overflow
flags. -/
theorem forgetEntryAndClearCountersClearWhatTheyName : Obligations.ForgetEntryAndClearCountersClearWhatTheyName := by
  intro k j s hs hk
  refine ⟨fun hne hlost => ?_, fun h => ?_, ?_⟩
  · have hlost' : (s.entry j).status = .lost := by rwa [State.entry_of_ne hne]
    rw [exec_forgetEntry hs, workForgetEntry_of_eq hk, if_pos hlost']
    rfl
  · have hlost : (s.entry j).status ≠ .lost := by
      by_cases hown : j = s.own
      · subst hown
        rw [State.entry_own hs.1]
        nofun
      · rw [State.entry_of_ne hown]
        exact h.resolve_left hown
    rw [exec_forgetEntry hs, workForgetEntry_of_eq hk, if_neg hlost]
    rfl
  · have he : exec .clearCounters s = .next (giveAnswer (workClearCounters s).2 (workClearCounters s).1) :=
      exec_of_takes rfl rfl hs
    exact ⟨_, he, rfl, clearOverflows_getElem s.gauge.probes, rfl, rfl⟩

end Sys2Proof.Machine
end

section
/-! The reads of the service port and their records (R22, R104, R138, R156, R166, R170, R180). -/

namespace Sys2Proof.Machine

open Sys2Proof

set_option Elab.async false

theorem probeParameter_of_eq {g p : Byte} {i : Fin 6}
    (h : g = 0 ∧ p.toNat < 4 ∧ p.toNat = i.val ∨ g = 1 ∧ p.toNat < 2 ∧ p.toNat + 4 = i.val) : probeParameter g p = some i := by
  obtain ⟨rfl, hp, hi⟩ | ⟨rfl, hp, hi⟩ := h
  · simp [probeParameter, hi]
    omega
  · simp [probeParameter, hp, hi]

theorem probeParameter_eq_none {g p : Byte} (h : ¬ (g = 0 ∧ p.toNat < 4 ∨ g = 1 ∧ p.toNat < 2)) : probeParameter g p = none := by
  unfold probeParameter
  split
  · next hg => exact dif_neg (fun hp => h (.inl ⟨hg, hp⟩))
  · split
    · next hg => exact dif_neg (fun hp => h (.inr ⟨hg, hp⟩))
    · rfl

/-- A read gives its answer and changes nothing else. -/
theorem exec_of_readWith {i : Instr} {answer : State → Answer} (h : serviceWork i = some (readWith answer))
    (hi : WellFormed i = true) {s : State} (hs : s.takes) :
    exec i s = .next ({ s with inputs := s.pinsAfter i }.answering (answer { s with inputs := s.pinsAfter i }).chars) :=
  exec_of_takes h hi hs

/-- The group of a probe that a group character names. -/
theorem groupOfProbe_of_eq {s : State} {g p : Byte} {i : Fin 6}
    (h : g = 0 ∧ p.toNat < 4 ∧ p.toNat = i.val ∨ g = 1 ∧ p.toNat < 2 ∧ p.toNat + 4 = i.val) :
    s.groupOfProbe i = if g = 0 then s.gauge.polder else s.gauge.outfall := by
  obtain ⟨rfl, hp, hi⟩ | ⟨rfl, hp, hi⟩ := h
  · rw [State.groupOfProbe, if_pos (by omega), if_pos rfl]
  · rw [State.groupOfProbe, if_neg (by omega), if_neg (by decide)]

theorem groupOfProbe_disagree {s : State} {g p : Byte} {i : Fin 6}
    (h : g = 0 ∧ p.toNat < 4 ∧ p.toNat = i.val ∨ g = 1 ∧ p.toNat < 2 ∧ p.toNat + 4 = i.val) :
    (s.groupOfProbe i).disagree = if g = 0 then s.gauge.polder.disagree else s.gauge.outfall.disagree := by
  rw [groupOfProbe_of_eq h]
  split <;> rfl

/-! ### The parts of the station record (R170) -/

/-- The straps and the own number. -/
def stationStraps (s : State) : List Byte := s.straps.chars ++ [byteOf s.own.val]

/-- The round timer and the active cable. -/
def stationTimer (s : State) : List Byte :=
  [byteOf (s.timer.mode.code + bitAt 7 (decide (s.timer.mode = .joining) && s.timer.aligned))]
    ++ word16Chars s.timer.count
    ++ [match s.timer.reference with | some r => byteOf r.val | none => 0xFF]
    ++ word16Chars s.timer.realignCount
    ++ [byteOf (cableCode s.line.active)]

/-- The allocation, the accepted flags and the gauges. -/
def stationPlan (s : State) : List Byte :=
  [byteOf s.alloc.qd, byteOf s.alloc.entitlement, byteOf s.alloc.demand, byteOf s.alloc.target, byteOf s.committed]
    ++ [match s.alloc.startWanted with | some k => byteOf k.val | none => 0xFF]
    ++ [s.table.accepted.zeroExtend 8]
    ++ [byteOf (classCode s.gauge.polder.heldClass), byteOf (classCode s.gauge.outfall.heldClass)]
    ++ [byteOf (bitAt 0 s.gauge.flood + bitAt 1 s.gauge.sumpA.low + bitAt 2 s.gauge.sumpB.low)]

/-- The arbiter and the attention flags. -/
def stationWindows (s : State) : List Byte :=
  [byteOf s.arb.freeWindows, byteOf s.arb.threshold, byteOf s.arb.lastResult.code] ++ windowRecordChars s.arb.record
    ++ [s.port.flags.zeroExtend 8, s.port.mask.zeroExtend 8]

theorem stationRecord_eq (s : State) :
    stationRecord s = 0x00 :: (stationStraps s ++ (stationTimer s ++ (stationPlan s ++ stationWindows s))) := by
  simp only [stationRecord, stationStraps, stationTimer, stationPlan, stationWindows, List.append_assoc, List.cons_append,
    List.nil_append] <;> rfl

theorem cableChar_eq (c : Cable) : byteOf (cableCode c) = match c with | .a => 0 | .b => 1 := by
  cases c <;> rfl

theorem classCode_char (c : Option (Fin 8)) :
    byteOf (classCode c) = match c with | some k => BitVec.ofNat 8 k.val | none => BitVec.ofNat 8 15 := by
  cases c <;> rfl

theorem lastResult_char (r : LastResult) : byteOf r.code = match r with | .none => 0 | .win => 1 | .loss => 2 := by
  cases r <;> rfl

theorem stationStraps_length (s : State) : (stationStraps s).length = 9 := rfl
theorem stationTimer_length (s : State) : (stationTimer s).length = 7 := rfl
theorem stationPlan_length (s : State) : (stationPlan s).length = 10 := rfl

theorem pumpRecord_marks (p : Pump) :
    bitAt 0 p.pastMinRun + bitAt 1 p.supervised + 4 * p.missCount + (if p.finishing then 32 else 0) + bitAt 6 p.holdPending =
      bitAt 0 p.pastMinRun + bitAt 1 p.supervised + 4 * p.missCount + bitAt 5 p.finishing + bitAt 6 p.holdPending := rfl

/-- The aligned mark of a JOINING station in the station record. -/
theorem bitAt_aligned (s : State) :
    bitAt 7 (decide (s.timer.mode = .joining) && s.timer.aligned) =
      if s.timer.mode = .joining ∧ s.timer.aligned = true then 128 else 0 := by
  simp [bitAt]

theorem exec_readEntry {s : State} (hs : s.takes) (k : Byte) (inp : Inputs) :
    exec (.readEntry k inp) s =
      .next ({ s with inputs := inp }.answering (answerEntry k { s with inputs := inp }).chars) :=
  exec_of_readWith (i := .readEntry k inp) rfl rfl hs

theorem exec_readPump {s : State} (hs : s.takes) (k : Byte) :
    exec (.readPump k) s = .next (s.answering (answerPump k s).chars) :=
  exec_of_readWith (i := .readPump k) rfl rfl hs

theorem exec_readProbe {s : State} (hs : s.takes) (g p : Byte) :
    exec (.readProbe g p) s = .next (s.answering (answerProbe g p s).chars) :=
  exec_of_readWith (i := .readProbe g p) rfl rfl hs

theorem exec_readCables {s : State} (hs : s.takes) :
    exec .readCables s = .next (s.answering (Answer.ok (cableRecord s)).chars) :=
  exec_of_readWith (i := .readCables) rfl rfl hs

theorem exec_readStation {s : State} (hs : s.takes) :
    exec .readStation s = .next (s.answering (Answer.ok (stationRecord s)).chars) :=
  exec_of_readWith (i := .readStation) rfl rfl hs

/-- The own entry at a taking, in the words of the statements. -/
theorem ownEntry_eq (s : State) :
    s.ownEntry =
      { status := .fresh, age := 0
        fields := some
          { mode := s.timer.mode, polderClass := s.gauge.polder.heldClass, flood := s.gauge.flood, demand := s.alloc.demand
            committed := s.committedDischarge, island := s.straps.island.val, offer := s.ownOffer, flags := s.inputs.flags
            summary := s.ownSummary }
        startSeen := s.table.ownStartSeen, lastCount := some s.timer.count } := by
  rw [State.ownEntry, State.ownFields, State.committed_eq]
  rfl

theorem entry_of_running {s : State} (h : s.cond = .running) (j : Station) :
    s.entry j = if j = s.own then s.ownEntry else s.table.entries[j] := by
  simp [State.entry, State.isRunning, h]

/-- Settles O45: each read answers its record, formed from the state at the taking, and writes nothing else. -/
theorem readsAnswerTheirRecordAndChangeNothing : Obligations.ReadsAnswerTheirRecordAndChangeNothing := by
  refine ⟨fun s hs => ?_, fun s hs => ?_⟩
  · intro n bit two round seconds
    refine ⟨fun k j inp hk => ?_, fun k inp hk => ?_, fun k j hk => ?_, fun k hk => ?_, fun g p i hi => ?_, fun g p h => ?_, ?_⟩
    · intro own e
      have he : ({ s with inputs := inp } : State).entry j = e := by
        rw [entry_of_running (by exact hs.1), ownEntry_eq]
        rfl
      rw [exec_readEntry hs, answerEntry, stationParameter_of_eq hk]
      simp only [he]
      clear_value e
      rfl
    · rw [exec_readEntry hs, answerEntry, stationParameter_of_gt hk]
      rfl
    · intro p
      rw [exec_readPump hs, answerPump, pumpParameter_of_eq hk]
      simp only [pumpRecord, pumpRecord_marks]
      obtain ⟨_, _, _, step⟩ := s.player j
      cases step <;> rfl
    · rw [exec_readPump hs, answerPump, pumpParameter_of_gt hk]
      rfl
    · intro r
      rw [exec_readProbe hs, answerProbe, probeParameter_of_eq hi]
      simp only [probeRecord, groupOfProbe_disagree hi]
      rfl
    · rw [exec_readProbe hs, answerProbe, probeParameter_eq_none h]
      rfl
    · rw [exec_readCables hs]
      rfl
  · refine ⟨stationStraps s ++ (stationTimer s ++ (stationPlan s ++ stationWindows s)), ?_, ?_⟩
    · rw [exec_readStation hs, stationRecord_eq]
      rfl
    · intro n cls
      refine ⟨?_, ?_, ?_, ?_⟩
      · rw [List.take_left' (stationStraps_length s)]
        rfl
      · rw [List.drop_left' (stationStraps_length s), List.take_left' (stationTimer_length s), stationTimer, bitAt_aligned,
          cableChar_eq]
        rfl
      · rw [← List.append_assoc, List.drop_left' (by simp [stationStraps_length, stationTimer_length]),
          List.take_left' (stationPlan_length s), stationPlan, State.committed_eq, classCode_char, classCode_char]
        rfl
      · rw [← List.append_assoc, ← List.append_assoc,
          List.drop_left' (by simp [stationStraps_length, stationTimer_length, stationPlan_length]), stationWindows, lastResult_char]
        rfl

end Sys2Proof.Machine
end

section
/-! The commands that hold, release and clear a pump and set its run minutes (R96 to R98, R100). -/

namespace Sys2Proof.Machine

open Sys2Proof

set_option Elab.async false

/-! ### The taking -/

theorem exec_holdPump {s : State} (hs : s.takes) (k : Byte) :
    exec (.holdPump k) s = .next (giveAnswer (workHoldPump k s).2 (workHoldPump k s).1) :=
  exec_of_takes rfl rfl hs

theorem exec_releasePump {s : State} (hs : s.takes) (k : Byte) :
    exec (.releasePump k) s = .next (giveAnswer (workReleasePump k s).2 (workReleasePump k s).1) :=
  exec_of_takes rfl rfl hs

theorem exec_clearFault {s : State} (hs : s.takes) (k : Byte) :
    exec (.clearFault k) s = .next (giveAnswer (workClearFault k s).2 (workClearFault k s).1) :=
  exec_of_takes rfl rfl hs

theorem exec_setRunMinutes {s : State} (hs : s.takes) (k : Byte) (m : BitVec 24) :
    exec (.setRunMinutes k m) s = .next (giveAnswer (workSetRunMinutes k m s).2 (workSetRunMinutes k m s).1) :=
  exec_of_takes rfl rfl hs

/-! ### HOLD PUMP (R97) -/

theorem workHoldPump_of_absent {k : Byte} {j : PumpIx} {s : State} (hk : k.toNat = j.val) (hp : (s.pump j).state = .absent) :
    workHoldPump k s = (s, .range) := by
  simp only [workHoldPump, pumpParameter_of_eq hk, hp, if_true]

theorem workHoldPump_of_fitted {k : Byte} {j : PumpIx} {s : State} (hk : k.toNat = j.val) (hp : (s.pump j).state ≠ .absent) :
    workHoldPump k s = (follow (holdPump j s), .ok []) := by
  simp only [workHoldPump, pumpParameter_of_eq hk, if_neg hp]

/-- A hold of a fitted pump is made and answered OK. -/
theorem exec_holdPump_of_fitted {k : Byte} {j : PumpIx} {s t : State} (hs : s.takes) (hk : k.toNat = j.val)
    (hp : (s.pump j).state ≠ .absent) (ht : holdPump j s = t) :
    exec (.holdPump k) s = .next ((follow t).answering [statusOk]) := by
  rw [exec_holdPump hs, workHoldPump_of_fitted hk hp, ht]
  rfl

theorem holdPump_of_idle {j : PumpIx} {s : State} (h : (s.pump j).state = .idle) :
    holdPump j s = s.setPump j { s.pump j with state := .held } := by
  simp only [holdPump, h]

theorem holdPump_of_resting {j : PumpIx} {s : State} (h : (s.pump j).state = .resting) :
    holdPump j s = s.setPump j { s.pump j with state := .held, restTimer := none } := by
  simp only [holdPump, h]

theorem holdPump_of_held {j : PumpIx} {s : State} (h : (s.pump j).state = .held) : holdPump j s = s := by
  simp only [holdPump, h]

/-- The pump with a hold pending. -/
def State.withHold (j : PumpIx) (s : State) : State := s.setPump j { s.pump j with holdPending := true }

@[simp] theorem State.withHold_pump (j : PumpIx) (s : State) : (s.withHold j).pump j = { s.pump j with holdPending := true } :=
  State.pump_setPump_self j _ s

theorem State.withHold_pump_of_ne {i j : PumpIx} (h : i ≠ j) (s : State) : (s.withHold j).pump i = s.pump i :=
  State.pump_setPump_of_ne (Ne.symm h) _ s

@[simp] theorem State.withHold_player (i j : PumpIx) (s : State) : (s.withHold j).player i = s.player i := rfl

theorem holdPump_of_pending {j : PumpIx} {s : State} (h : (s.pump j).state = .rampDown ∨ (s.pump j).state = .faulted) :
    holdPump j s = s.withHold j := by
  obtain h | h := h <;> simp only [holdPump, h, State.withHold]

theorem holdPump_of_start {j : PumpIx} {s : State}
    (h : (s.pump j).state = .priming ∨ (s.pump j).state = .rampUp ∨ (s.pump j).state = .running) :
    holdPump j s = demandStop true j (s.withHold j) := by
  obtain h | h | h := h <;> simp only [holdPump, h, State.withHold]

theorem demandStop_of_priming {b : Bool} {j : PumpIx} {s : State} (h : (s.pump j).state = .priming) :
    demandStop b j s = enterResting j s := by
  simp only [demandStop, h]

theorem demandStop_of_finishing {b : Bool} {j : PumpIx} {s : State}
    (h : (s.pump j).state = .rampUp ∨ (s.pump j).state = .running) (hf : (s.pump j).finishing = true) : demandStop b j s = s := by
  obtain h | h := h <;> simp only [demandStop, h, hf, if_true]

theorem demandStop_disregarding {j : PumpIx} {s : State}
    (h : (s.pump j).state = .rampUp ∨ (s.pump j).state = .running) (hf : (s.pump j).finishing = false) :
    demandStop true j s = markFinishing j s := by
  obtain h | h := h <;> simp [demandStop, h, hf]

theorem markFinishing_eq_of_playing {j : PumpIx} {s : State} (h : (s.player j).playing = true) :
    markFinishing j s = State.setPlayer j { s.player j with finish := true } (s.setPump j { s.pump j with finishing := true }) := by
  simp only [markFinishing, Player.requestFinish, h, if_true]

theorem setPump_withHold (j : PumpIx) (s : State) (p : Pump) : (s.withHold j).setPump j p = s.setPump j p := by
  simp [State.withHold, State.setPump]

/-- What the entry to RESTING writes, in the fields it writes. -/
theorem enterResting_units (k : PumpIx) (s : State) :
    enterResting k s = { s with pumps := (enterResting k s).pumps, players := (enterResting k s).players
                                drives := (enterResting k s).drives } := rfl

theorem enterRampDown_units (k : PumpIx) (s : State) :
    enterRampDown k s = { s with pumps := (enterRampDown k s).pumps, players := (enterRampDown k s).players } := rfl

end Sys2Proof.Machine
end

section
/-! HOLD PUMP by the pump's state (R97). -/

namespace Sys2Proof.Machine

open Sys2Proof

set_option Elab.async false

@[simp] theorem State.answering_pump (cs : List Byte) (s : State) (k : PumpIx) : (s.answering cs).pump k = s.pump k := rfl

@[simp] theorem State.answering_player (cs : List Byte) (s : State) (k : PumpIx) : (s.answering cs).player k = s.player k := rfl

@[simp] theorem State.answering_valveOpen (cs : List Byte) (s : State) (k : PumpIx) :
    (s.answering cs).valveOpen k = s.valveOpen k := rfl

@[simp] theorem State.answering_answer (cs : List Byte) (s : State) : (s.answering cs).port.answer = some cs := rfl

/-- What a hold makes of the pumps, the players and the drives, with what follows it and the answer. -/
theorem follow_answering_units {s x : State} (cs : List Byte)
    (h : x = { s with pumps := x.pumps, players := x.players, drives := x.drives }) :
    (follow x).answering cs =
      (follow { s with pumps := ((follow x).answering cs).pumps, players := ((follow x).answering cs).players
                       drives := ((follow x).answering cs).drives }).answering cs := by
  have hp : ((follow x).answering cs).pumps = x.pumps := follow_pumps x
  have hq : ((follow x).answering cs).players = x.players := follow_players x
  have hd : ((follow x).answering cs).drives = x.drives := follow_drives x
  rw [hp, hq, hd, ← h]

/-- The same where the drives stand. -/
theorem follow_answering_players {s x : State} (cs : List Byte) (h : x = { s with pumps := x.pumps, players := x.players }) :
    (follow x).answering cs =
      (follow { s with pumps := ((follow x).answering cs).pumps, players := ((follow x).answering cs).players }).answering cs := by
  have hp : ((follow x).answering cs).pumps = x.pumps := follow_pumps x
  have hq : ((follow x).answering cs).players = x.players := follow_players x
  rw [hp, hq, ← h]

/-- A pump that does not run enters RESTING with its hold pending and its work as they stood. -/
theorem Pump.toResting_of_not {p : Pump} (h : p.state.runs = false) :
    p.toResting =
      { p with state := .resting, finishing := false, primeTimer := none, feedbackTimer := none, supervised := false
               missCount := 0, minRunTimer := none, pastMinRun := false, restTimer := some 120000000, secondTimer := none } := by
  rw [Pump.toResting, Pump.leaveRun_of_not h]

/-- The hold of a PRIMING pump (R84, R97). -/
theorem held_priming {j : PumpIx} {s : State} (h : (s.pump j).state = .priming) :
    (enterResting j (s.withHold j)).pump j = { s.pump j with
      holdPending := true, state := .resting, finishing := false, primeTimer := none, feedbackTimer := none, supervised := false
      missCount := 0, minRunTimer := none, pastMinRun := false, restTimer := some 120000000, secondTimer := none } := by
  have hr : ((s.withHold j).pump j).state.runs = false := by
    rw [State.withHold_pump, h]
    rfl
  rw [enterResting_pump_self, Pump.toResting_of_not hr, State.withHold_pump]

/-- The hold of a RUNNING pump that holds its speed (R84, R97). -/
theorem held_running (j : PumpIx) (s : State) :
    (enterRampDown j (s.withHold j)).pump j = { ({ s.pump j with holdPending := true } : Pump).leaveRun with state := .rampDown } := by
  rw [enterRampDown_pump_self, State.withHold_pump]

/-- Settles O48, by the pump's state. -/
theorem holdPumpActsByThePumpsState : Obligations.HoldPumpActsByThePumpsState := by
  intro k j s hs hk p held
  have act {t : State} (hp : p.state ≠ .absent) (ht : holdPump j s = t) :
      exec (.holdPump k) s = .next ((follow t).answering [statusOk]) := exec_holdPump_of_fitted hs hk hp ht
  refine ⟨fun hp => ?_, fun hp => ?_, fun hp => ?_, fun hp => ?_, fun hp => ?_, fun hp => ?_, fun hp hf => ?_, fun hp hf hq => ?_,
    fun hp hf hq => ?_⟩
  · exact act (by simp [hp]) (holdPump_of_idle hp)
  · exact act (by simp [hp]) (holdPump_of_resting hp)
  · exact act (by obtain hp | hp := hp <;> simp [hp]) (holdPump_of_pending hp)
  · exact act (by simp [hp]) (holdPump_of_held hp)
  · rw [exec_holdPump hs, workHoldPump_of_absent hk hp]
    rfl
  · have hstop : holdPump j s = enterResting j (s.withHold j) :=
      (holdPump_of_start (.inl hp)).trans (demandStop_of_priming (by rw [State.withHold_pump]; exact hp))
    have hpump := held_priming (j := j) (s := s) hp
    refine ⟨_, act (by simp [hp]) hstop, ?_, ?_, ?_, ?_, ?_, State.answering_answer _ _, follow_answering_units _ rfl,
      fun i hi => ?_⟩
    · rw [State.answering_pump, follow_pump, hpump]
    · rw [State.answering_pump, follow_pump, hpump]
    · rw [State.answering_pump, follow_pump, hpump]
    · rw [State.answering_pump, follow_pump, hpump]
    · rw [State.answering_valveOpen, follow_valveOpen, State.valveOpen, hpump, Bool.and_eq_false_iff]
      exact .inr rfl
    · rw [State.answering_pump, State.answering_player, follow_pump, follow_player, enterResting_pump_of_ne hi,
        enterResting_player_of_ne hi, State.withHold_pump_of_ne hi, State.withHold_player]
      exact ⟨rfl, rfl⟩
  · refine act (by obtain hp | hp := hp <;> simp [hp]) ((holdPump_of_start (.inr hp)).trans (demandStop_of_finishing ?_ ?_))
    · rw [State.withHold_pump]
      exact hp
    · rw [State.withHold_pump]
      exact hf
  · refine act (by obtain hp | hp := hp <;> simp [hp])
      ((holdPump_of_start (.inr hp)).trans ((demandStop_disregarding ?_ ?_).trans ?_))
    · rw [State.withHold_pump]
      exact hp
    · rw [State.withHold_pump]
      exact hf
    · rw [markFinishing_eq_of_playing (by rw [State.withHold_player]; exact hq), State.withHold_player, State.withHold_pump,
        setPump_withHold]
  · have hstop : holdPump j s = enterRampDown j (s.withHold j) := by
      rw [holdPump_of_start (.inr (.inr hp)),
        demandStop_disregarding (by rw [State.withHold_pump]; exact .inr hp) (by rw [State.withHold_pump]; exact hf),
        markFinishing_of_running (by rw [State.withHold_player]; exact hq) (by rw [State.withHold_pump]; exact hp)]
    have hpump := held_running j s
    have hplayer : (enterRampDown j (s.withHold j)).player j =
        Player.beginPlay s.profile (s.pointers[j]).rate .oneShot (s.pointers[j]).down := enterRampDown_player_self j _
    refine ⟨_, act (by simp [hp]) hstop, ?_, ?_, ?_, ?_, ?_, ?_, State.answering_answer _ _, follow_answering_players _ rfl,
      fun i hi => ?_⟩
    · rw [State.answering_pump, follow_pump, hpump]
    · rw [State.answering_pump, follow_pump, hpump, Pump.leaveRun_eq]
    · rw [State.answering_pump, follow_pump, hpump, Pump.leaveRun_eq]
    · rw [State.answering_pump, follow_pump, hpump]
      have hkeeps : ({ p with holdPending := true } : Pump).keepsWork
          { ({ p with holdPending := true } : Pump).leaveRun with state := .rampDown } := Pump.keepsWork_of_eq rfl rfl
      exact hkeeps
    · rw [State.answering_player, follow_player, hplayer]
      rfl
    · rw [State.answering_player, follow_player, hplayer]
      rfl
    · rw [State.answering_pump, State.answering_player, follow_pump, follow_player, enterRampDown_pump_of_ne hi,
        enterRampDown_player_of_ne hi, State.withHold_pump_of_ne hi, State.withHold_player]
      exact ⟨rfl, rfl⟩

end Sys2Proof.Machine
end

section
/-! RELEASE PUMP, CLEAR FAULT and SET RUN MINUTES (R96, R98, R100). -/

namespace Sys2Proof.Machine

open Sys2Proof

set_option Elab.async false

theorem workReleasePump_of_absent {k : Byte} {j : PumpIx} {s : State} (hk : k.toNat = j.val) (hp : (s.pump j).state = .absent) :
    workReleasePump k s = (s, .range) := by
  simp only [workReleasePump, pumpParameter_of_eq hk, hp, if_true]

theorem workReleasePump_of_fitted {k : Byte} {j : PumpIx} {s : State} (hk : k.toNat = j.val)
    (hp : (s.pump j).state ≠ .absent) : workReleasePump k s = (releasePump j s, .ok []) := by
  simp only [workReleasePump, pumpParameter_of_eq hk, if_neg hp]

theorem workClearFault_of_faulted {k : Byte} {j : PumpIx} {s : State} (hk : k.toNat = j.val)
    (hp : (s.pump j).state = .faulted) : workClearFault k s = (clearFault j s, .ok []) := by
  simp only [workClearFault, pumpParameter_of_eq hk, if_pos hp]

theorem workClearFault_of_not {k : Byte} {j : PumpIx} {s : State} (hk : k.toNat = j.val)
    (hp : (s.pump j).state ≠ .faulted) : workClearFault k s = (s, .range) := by
  simp only [workClearFault, pumpParameter_of_eq hk, if_neg hp]

theorem workSetRunMinutes_of_absent {k : Byte} {j : PumpIx} {s : State} (hk : k.toNat = j.val)
    (hp : (s.pump j).state = .absent) (m : BitVec 24) : workSetRunMinutes k m s = (s, .range) := by
  simp only [workSetRunMinutes, pumpParameter_of_eq hk, if_pos hp]

theorem workSetRunMinutes_of_fitted {k : Byte} {j : PumpIx} {s : State} (hk : k.toNat = j.val)
    (hp : (s.pump j).state ≠ .absent) (m : BitVec 24) :
    workSetRunMinutes k m s =
      (s.setPump j { s.pump j with runMinutes := m.toNat, accumulator := (s.pump j).accumulatorAtSet }, .ok []) := by
  simp only [workSetRunMinutes, pumpParameter_of_eq hk, if_neg hp]

/-- A pump with the second of its next minute complete at this instant and not yet counted (R100). -/
def Pump.completing (p : Pump) : Prop :=
  ((p.state = .rampUp ∨ p.state = .running) ∧ p.secondTimer = some 0) ∧ p.accumulator = 59

theorem Pump.accumulatorAtSet_of_completing {p : Pump} (h : p.completing) : p.accumulatorAtSet = 59 := by
  obtain ⟨⟨hr, ht⟩, ha⟩ := h
  have hruns : p.state.runs = true := (PumpState.runs_iff _).mpr hr
  simp [Pump.accumulatorAtSet, Pump.secondDue, hruns, ht, ha]

theorem Pump.accumulatorAtSet_of_not {p : Pump} (h : ¬ p.completing) : p.accumulatorAtSet = 0 := by
  refine if_neg fun hd => h ?_
  simp only [Pump.secondDue, Bool.and_eq_true, decide_eq_true_eq] at hd
  obtain ⟨⟨hr, ht⟩, ha⟩ := hd
  exact ⟨⟨(PumpState.runs_iff _).mp hr, ht⟩, ha⟩

/-- What the entry to RESTING from a state that does not run makes of a state (R92). -/
theorem enterResting_rested {j : PumpIx} {s : State} (h : (s.pump j).state.runs = false) :
    (enterResting j s).pump j =
        { s.pump j with
          state := .resting, finishing := false, primeTimer := none, feedbackTimer := none, supervised := false, missCount := 0
          minRunTimer := none, pastMinRun := false, restTimer := some 120000000, secondTimer := none } ∧
      (enterResting j s).player j = Player.idle 0 ∧ (enterResting j s).drives.duty[j] = 0 ∧
      (∀ i, i ≠ j → (enterResting j s).pump i = s.pump i ∧ (enterResting j s).player i = s.player i) :=
  ⟨(enterResting_pump_self j s).trans (Pump.toResting_of_not h), enterResting_player j s, enterResting_duty j s,
    fun _ hi => ⟨enterResting_pump_of_ne hi s, enterResting_player_of_ne hi s⟩⟩

/-- A second that completes a minute adds 1 to the run minutes (R100, log 38). -/
theorem runSecond_completes_minute {j : PumpIx} {s : State} (hrun : s.cond = .running)
    (h : (s.pump j).state = .rampUp ∨ (s.pump j).state = .running) (ha : (s.pump j).accumulator = 59) :
    ∃ u, exec (.runSecond j) s = .next u ∧ (u.pump j).runMinutes = min 16777215 ((s.pump j).runMinutes + 1) ∧
      (u.pump j).accumulator = 0 := by
  have he : exec (.runSecond j) s = .next (follow (secondPasses j s)) := exec_event rfl hrun
  rw [secondPasses_of_runs ((PumpState.runs_iff _).mpr h), Pump.countSecond, if_pos (by omega)] at he
  refine ⟨_, he, ?_⟩
  rw [follow_pump, State.pump_setPump_self]
  exact ⟨rfl, rfl⟩

/-- The answer to a command that leaves all but the pumps, the players and the drives. -/
theorem answering_units {s x : State} (cs : List Byte)
    (h : x = { s with pumps := x.pumps, players := x.players, drives := x.drives }) :
    x.answering cs = { s with pumps := (x.answering cs).pumps, players := (x.answering cs).players
                              drives := (x.answering cs).drives, port := { s.port with answer := some cs } } :=
  congrArg (State.answering cs) h

theorem clearFault_units (j : PumpIx) (s : State) :
    clearFault j s = { s with pumps := (clearFault j s).pumps, players := (clearFault j s).players
                              drives := (clearFault j s).drives } := by
  unfold clearFault
  exact enterResting_units j _

/-- Settles O49: each command by the state of the pump it names, and RANGE for an index out of range. -/
theorem releaseClearAndSetMinutesActOnTheirPump : Obligations.ReleaseClearAndSetMinutesActOnTheirPump := by
  refine ⟨fun k j m s hs hk => ?_, fun k m s hs => ⟨fun hk => ?_, fun hk => ?_⟩⟩
  · intro p rested
    refine ⟨fun hp => ?_, fun hp hne => ?_, fun hp => ?_, fun hp => ?_, fun hp => ?_, fun hp => ?_, fun hp => ?_⟩
    · have hwork : workReleasePump k s = (enterResting j s, .ok []) := by
        rw [workReleasePump_of_fitted hk (by rw [show (s.pump j).state = _ from hp]; nofun), releasePump, if_pos hp]
      have hruns : (s.pump j).state.runs = false := by
        rw [show (s.pump j).state = _ from hp]
        rfl
      obtain ⟨hpump, hplayer, hduty, hothers⟩ := enterResting_rested hruns
      refine ⟨(enterResting j s).answering [statusOk], ?_, hpump, hplayer, hduty, rfl, hothers, answering_units _ (enterResting_units j s)⟩
      rw [exec_releasePump hs, hwork]
      rfl
    · rw [exec_releasePump hs, workReleasePump_of_fitted hk hne, releasePump, if_neg hp]
      rfl
    · rw [exec_releasePump hs, workReleasePump_of_absent hk hp]
      rfl
    · have hpump : (s.setPump j { s.pump j with cause := none }).pump j = { s.pump j with cause := none } :=
        State.pump_setPump_self j _ s
      have hruns : ((s.setPump j { s.pump j with cause := none }).pump j).state.runs = false := by
        rw [hpump, show (s.pump j).state = _ from hp]
        rfl
      obtain ⟨hrest, hplayer, hduty, hothers⟩ := enterResting_rested hruns
      rw [hpump] at hrest
      refine ⟨(clearFault j s).answering [statusOk], ?_, hrest, hplayer, hduty, rfl, fun i hi => ?_, answering_units _ (clearFault_units j s)⟩
      · rw [exec_clearFault hs, workClearFault_of_faulted hk hp]
        rfl
      · obtain ⟨hi₁, hi₂⟩ := hothers i hi
        exact ⟨hi₁.trans (State.pump_setPump_of_ne (Ne.symm hi) _ s), hi₂⟩
    · rw [exec_clearFault hs, workClearFault_of_not hk hp]
      rfl
    · intro completing
      have he := exec_setRunMinutes hs k m
      rw [workSetRunMinutes_of_fitted hk hp] at he
      refine ⟨fun hn => ?_, fun hc => ?_⟩
      · rw [Pump.accumulatorAtSet_of_not hn] at he
        exact he
      · rw [Pump.accumulatorAtSet_of_completing hc] at he
        obtain ⟨⟨hr, _⟩, _⟩ := hc
        have hpump := State.pump_setPump_self j { s.pump j with runMinutes := m.toNat, accumulator := 59 } s
        obtain ⟨u, hu, hm, ha⟩ := runSecond_completes_minute (j := j)
          (s := (s.setPump j { s.pump j with runMinutes := m.toNat, accumulator := 59 }).answering [statusOk])
          hs.1 (by rw [State.answering_pump, hpump]; exact hr) (by rw [State.answering_pump, hpump])
        rw [State.answering_pump, hpump] at hm
        exact ⟨_, u, he, rfl, hu, hm, ha⟩
    · rw [exec_setRunMinutes hs, workSetRunMinutes_of_absent hk hp]
      rfl
  · have hnone := pumpParameter_of_gt hk
    refine ⟨?_, ?_, ?_, ?_⟩
    · rw [exec_holdPump hs, workHoldPump, hnone]
      rfl
    · rw [exec_releasePump hs, workReleasePump, hnone]
      rfl
    · rw [exec_clearFault hs, workClearFault, hnone]
      rfl
    · rw [exec_setRunMinutes hs, workSetRunMinutes, hnone]
      rfl
  · rw [exec_forgetEntry hs, workForgetEntry_of_gt hk]
    rfl

end Sys2Proof.Machine
end

section
/-! SELECT CABLE, START CHECK and STOP CHECK (R149, R153, R155). -/

namespace Sys2Proof.Machine

open Sys2Proof

set_option Elab.async false

theorem exec_selectCable {s : State} (hs : s.takes) (c : Byte) :
    exec (.selectCable c) s = .next (giveAnswer (workSelectCable c s).2 (workSelectCable c s).1) :=
  exec_of_takes rfl rfl hs

theorem exec_startCheck {s : State} (hs : s.takes) (n : Byte) :
    exec (.startCheck n) s = .next (giveAnswer (workStartCheck n s).2 (workStartCheck n s).1) :=
  exec_of_takes rfl rfl hs

theorem exec_stopCheck {s : State} (hs : s.takes) : exec .stopCheck s = .next ((abortCheck s).answering [statusOk]) :=
  exec_of_takes (w := fun s => (abortCheck s, .ok [])) rfl rfl hs

theorem cableParameter_of_eq {c : Byte} {x : Cable} (h : c = 0 ∧ x = .a ∨ c = 1 ∧ x = .b) : cableParameter c = some x := by
  obtain ⟨rfl, rfl⟩ | ⟨rfl, rfl⟩ := h <;> rfl

theorem cableParameter_of_gt {c : Byte} (h : 1 < c.toNat) : cableParameter c = none := by
  have h₀ : c ≠ 0 := by bv_omega
  have h₁ : c ≠ 1 := by bv_omega
  rw [cableParameter, if_neg h₀, if_neg h₁]

theorem workSelectCable_of_gt {c : Byte} (h : 1 < c.toNat) (s : State) : workSelectCable c s = (s, .range) := by
  simp only [workSelectCable, cableParameter_of_gt h]

theorem workSelectCable_of_eq {c : Byte} {x : Cable} (h : c = 0 ∧ x = .a ∨ c = 1 ∧ x = .b) (s : State) :
    workSelectCable c s = if s.line.active = x then (s, .ok [])
      else if (s.line.cable x).locked then (setActive x s, .ok []) else (s, .busy) := by
  simp only [workSelectCable, cableParameter_of_eq h]

theorem abortCheck_of_stopped {s : State} (h : s.line.check.running = false) : abortCheck s = s := by
  rw [abortCheck, h, if_neg Bool.false_ne_true]

theorem abortCheck_of_running {s : State} (h : s.line.check.running = true) :
    abortCheck s = State.raise .checkDone { s with line := { s.line with check := s.line.check.ends .aborted } } := by
  rw [abortCheck, if_pos h]
  rfl

theorem workStartCheck_of_running {n : Byte} {s : State} (hn : n ≠ 0) (h : s.line.check.running = true) :
    workStartCheck n s = (s, .busy) := by
  rw [workStartCheck, if_neg hn, if_pos h]

/-- A check as START CHECK begins it (R153). -/
def CableCheck.begun (n : Nat) (k : CableCheck) : CableCheck :=
  { k with running := true, armed := false, roundsLeft := n, errored := 0, result := .none, roundErrored := false, opened := []
           arrivals := [] }

theorem workStartCheck_of_stopped {n : Byte} {s : State} (hn : n ≠ 0) (h : s.line.check.running = false) :
    workStartCheck n s = ({ s with line := { s.line with check := s.line.check.begun n.toNat } }, .ok []) := by
  rw [workStartCheck, if_neg hn, h, if_neg Bool.false_ne_true]
  rfl

/-- Settles O50: SELECT CABLE by the cable it names, START CHECK and STOP CHECK by whether a check is RUNNING. -/
theorem selectCableAndTheCableCheckCommands : Obligations.SelectCableAndTheCableCheckCommands := by
  refine ⟨fun c s hs => ⟨fun hc => ?_, fun x hx => ⟨fun ha => ?_, fun ha hl => ?_, fun ha hl hr => ?_, fun ha hl hr => ?_⟩⟩,
    fun n s hs => ⟨fun hn => ?_, fun hn hr => ?_, fun hn hr => ?_, fun hr => ?_, fun hr => ?_⟩⟩
  · rw [exec_selectCable hs, workSelectCable_of_gt hc]
    rfl
  · rw [exec_selectCable hs, workSelectCable_of_eq hx, if_pos ha]
    rfl
  · rw [exec_selectCable hs, workSelectCable_of_eq hx, if_neg ha, hl, if_neg Bool.false_ne_true]
    rfl
  · rw [exec_selectCable hs, workSelectCable_of_eq hx, if_neg ha, if_pos hl, setActive_of_stopped hr]
    rfl
  · refine ⟨(setActive x s).answering [statusOk], ?_, ?_⟩
    · rw [exec_selectCable hs, workSelectCable_of_eq hx, if_neg ha, if_pos hl]
      rfl
    · rw [setActive_of_running hr]
      exact ⟨rfl, rfl, rfl, rfl, rfl, rfl, rfl, rfl, rfl⟩
  · rw [exec_startCheck hs, workStartCheck, if_pos hn]
    rfl
  · rw [exec_startCheck hs, workStartCheck_of_running hn hr]
    rfl
  · have he := exec_startCheck hs n
    rw [workStartCheck_of_stopped hn hr] at he
    exact ⟨_, he, rfl, rfl, rfl, rfl, rfl, rfl, rfl⟩
  · rw [exec_stopCheck hs, abortCheck_of_stopped hr]
  · refine ⟨_, exec_stopCheck hs, ?_⟩
    rw [abortCheck_of_running hr]
    exact ⟨rfl, rfl, rfl, rfl, rfl, rfl, rfl⟩

end Sys2Proof.Machine
end

section
/-! The characters of the service commands and their reading back (R165, R167, R168, R169, R179). -/

namespace Sys2Proof.Machine

open Sys2Proof

set_option Elab.async false

/-! ### Commands and their characters -/

/-- A well-formed command has as many parameter characters as its command character takes (R169). -/
theorem parameterCount_of_code {i : Instr} {code : Byte} (hi : WellFormed i = true) (h : i.serviceCode = some code) :
    (parameterCount code).getD 0 = i.parameters.length := by
  by_cases hu : ∃ c, i = .unknown c
  · obtain ⟨c, rfl⟩ := hu
    obtain rfl := Option.some.inj h
    have hn : (parameterCount c).isNone = true := hi
    rw [Option.isNone_iff_eq_none.mp hn]
    rfl
  · cases i <;> cases h <;> first
      | rfl
      | exact absurd ⟨_, rfl⟩ hu

theorem threeChars_append (m : BitVec 24) : m.extractLsb' 16 8 ++ m.extractLsb' 8 8 ++ m.extractLsb' 0 8 = m := by
  apply BitVec.eq_of_getLsbD_eq
  intro i hi
  simp only [BitVec.getLsbD_append, BitVec.getLsbD_extractLsb']
  split
  · simp_all
  · split
    · have : 8 + (i - 8) = i := by omega
      simp_all
    · have : 16 + (i - 8 - 8) = i := by omega
      have : i - 8 - 8 < 8 := by omega
      simp_all

/-- A character that names no command is read as UNKNOWN (R168), by evaluation of each of the 256 characters: the pins play no part
in any of them. -/
theorem serviceCommand_unknown (inp : Inputs) :
    ∀ code : Byte, parameterCount code = none → serviceCommand inp [code] = some (.unknown code) :=
  of_decide_eq_true (Eq.refl true)

/-- The characters of a command are read back as the command. -/
theorem serviceCommand_of_code {i : Instr} {code : Byte} (hi : WellFormed i = true) (h : i.serviceCode = some code)
    {inp : Inputs} (hinp : ∀ k p, i = .readEntry k p → p = inp) : serviceCommand inp (code :: i.parameters) = some i := by
  cases i <;> cases h
  case unknown => exact serviceCommand_unknown inp _ (Option.isNone_iff_eq_none.mp hi)
  case readEntry k p =>
    obtain rfl := hinp k p rfl
    rfl
  case setRunMinutes k m => exact congrArg (fun w => some (Instr.setRunMinutes k w)) (threeChars_append m)
  all_goals rfl

/-! ### Characters and bits (R165) -/

theorem bitsChar_charBits (c : Byte) : bitsChar (charBits c) = c := by
  revert c
  decide +kernel

theorem clockedChars_charBits (c : Byte) (bs : List Bool) : clockedChars (charBits c ++ bs) = c :: clockedChars bs :=
  congrArg (· :: clockedChars bs) (bitsChar_charBits c)

theorem clockedChars_of_short : ∀ {bs : List Bool}, bs.length < 8 → clockedChars bs = []
  | [], _ | [_], _ | [_, _], _ | [_, _, _], _ | [_, _, _, _], _ | [_, _, _, _, _], _ | [_, _, _, _, _, _], _
  | [_, _, _, _, _, _, _], _ => rfl
  | _ :: _ :: _ :: _ :: _ :: _ :: _ :: _ :: bs, h => by
    simp only [List.length_cons] at h
    omega

theorem charBits_length (c : Byte) : (charBits c).length = 8 := rfl

/-- The bits of whole characters are read as those characters, whatever follows. -/
theorem clockedChars_flatMap (cs : List Byte) (more : List Bool) :
    clockedChars (cs.flatMap charBits ++ more) = cs ++ clockedChars more := by
  induction cs with
  | nil => rfl
  | cons c cs ih => rw [List.flatMap_cons, List.append_assoc, clockedChars_charBits, ih, List.cons_append]

/-- Of the first `n` bits of whole characters the whole characters are read. -/
theorem clockedChars_take (cs : List Byte) (n : Nat) : clockedChars ((cs.flatMap charBits).take n) = cs.take (n / 8) := by
  induction cs generalizing n with
  | nil => simp [clockedChars]
  | cons c cs ih =>
    by_cases h : n < 8
    · rw [Nat.div_eq_of_lt h, List.take_zero]
      refine clockedChars_of_short ?_
      rw [List.length_take]
      omega
    · obtain ⟨m, rfl⟩ : ∃ m, n = m + 8 := ⟨n - 8, by omega⟩
      have hbits : ((c :: cs).flatMap charBits).take (m + 8) = charBits c ++ (cs.flatMap charBits).take m := by
        rw [List.flatMap_cons, List.take_append, charBits_length, List.take_of_length_le (by rw [charBits_length]; omega)]
        rfl
      rw [hbits, clockedChars_charBits, ih, Nat.add_div_right m (by decide), List.take_succ_cons]

/-- The characters of a word that carries them, the first in its low eight bits. -/
theorem wordCharacters_foldr (cs : List Byte) {n : Nat} (hn : n ≤ cs.length) :
    wordCharacters n (cs.foldr (fun c w => c.toNat + 256 * w) 0) = cs.take n := by
  induction cs generalizing n with
  | nil =>
    obtain rfl : n = 0 := by simpa using hn
    rfl
  | cons c cs ih =>
    cases n with
    | zero => rfl
    | succ n =>
      have hn' : n ≤ cs.length := by simpa using hn
      have hrest : (c.toNat + 256 * cs.foldr (fun c w => c.toNat + 256 * w) 0) / 256 =
          cs.foldr (fun c w => c.toNat + 256 * w) 0 := by
        have := c.isLt
        omega
      rw [List.take_succ_cons, ← ih hn', List.foldr_cons]
      simp only [wordCharacters, List.range_succ_eq_map, List.map_cons, List.map_map, Function.comp_def, pow_succ',
        ← Nat.div_div_eq_div_mul, hrest, pow_zero, Nat.div_one]
      refine congrArg₂ List.cons (BitVec.eq_of_toNat_eq ?_) rfl
      rw [BitVec.toNat_ofNat, Nat.add_mul_mod_self_left]
      exact Nat.mod_eq_of_lt c.isLt

/-! ### The taking in a transaction -/

/-- A transaction that clocks all characters of a command, and any after them, takes it. -/
theorem clockedCommand_of_chars {inp : Inputs} {bits : List Bool} {code : Byte} {ps rest : List Byte}
    (h : clockedChars bits = code :: (ps ++ rest)) (hn : (parameterCount code).getD 0 = ps.length) :
    clockedCommand inp bits = serviceCommand inp (code :: ps) := by
  have hle : (parameterCount code).getD 0 ≤ (ps ++ rest).length := by
    rw [hn, List.length_append]
    omega
  simp only [clockedCommand, h, if_pos hle]
  rw [hn, List.take_left]

/-- One that clocks fewer takes none. -/
theorem clockedCommand_of_short {inp : Inputs} {bits : List Bool} {code : Byte} {ps : List Byte} {n : Nat}
    (h : clockedChars bits = (code :: ps).take n) (hn : n < (code :: ps).length)
    (hcount : (parameterCount code).getD 0 = ps.length) : clockedCommand inp bits = none := by
  unfold clockedCommand
  rw [h]
  cases n with
  | zero => rfl
  | succ n =>
    have hlt : ¬ (parameterCount code).getD 0 ≤ (ps.take n).length := by
      rw [hcount, List.length_take]
      simp only [List.length_cons] at hn
      omega
    exact if_neg hlt

/-- Settles O54: the characters of a command, their bits and their word have it taken at its last bit and not before. -/
theorem serviceCharactersReadBackAsTheCommand : Obligations.ServiceCharactersReadBackAsTheCommand := by
  intro i cs inp hi hcs hinp
  obtain ⟨code, hcode, rfl⟩ := Option.map_eq_some_iff.mp hcs
  have hread : serviceCommand inp (code :: i.parameters) = some i := serviceCommand_of_code hi hcode hinp
  have hcount := parameterCount_of_code hi hcode
  have htaken (more : List Bool) : clockedCommand inp ((code :: i.parameters).flatMap charBits ++ more) = some i := by
    rw [clockedCommand_of_chars (clockedChars_flatMap _ _) hcount, hread]
  have hshort (n : Nat) (hn : n < (code :: i.parameters).length) :
      clockedCommand inp (((code :: i.parameters).take n).flatMap charBits) = none := by
    refine clockedCommand_of_short ?_ hn hcount
    have h := clockedChars_flatMap ((code :: i.parameters).take n) []
    have hnil : clockedChars [] = [] := rfl
    rwa [List.append_nil, hnil, List.append_nil] at h
  refine ⟨hread, ?_, fun nbits hn => ?_, ?_⟩
  · have h := htaken []
    rw [List.append_nil] at h
    rw [wordCommand, Nat.mul_div_cancel_left _ (by decide), wordCharacters_foldr _ (Nat.le_refl _), List.take_length]
    exact h
  · have hlt : nbits / 8 < (code :: i.parameters).length := Nat.div_lt_of_lt_mul hn
    rw [wordCommand, wordCharacters_foldr _ (Nat.le_of_lt hlt)]
    exact hshort _ hlt
  · intro bits
    have hbits : bits = (code :: i.parameters).flatMap charBits := rfl
    rw [hbits]
    refine ⟨fun more => ⟨htaken more, ?_⟩, fun n hn => ?_⟩
    · rw [transaction, htaken]
      rfl
    · have hnone : clockedCommand inp (((code :: i.parameters).flatMap charBits).take n) = none :=
        clockedCommand_of_short (clockedChars_take _ _) (Nat.div_lt_of_lt_mul hn) hcount
      refine ⟨hnone, ?_⟩
      rw [transaction, hnone]
      rfl

end Sys2Proof.Machine
end

section
/-! The classes of a level (R129, R130). -/

namespace Sys2Proof.Machine

open Sys2Proof

set_option Elab.async false

/-- Of the seven thresholds those up to the `m`-th number `m`. -/
theorem length_filter_le (m : Nat) :
    (([1, 2, 3, 4, 5, 6, 7] : List Nat).filter (fun i => decide (i ≤ m))).length = min 7 m := by
  by_cases h : m ≤ 6
  · interval_cases m <;> rfl
  · have hall : ∀ i ∈ ([1, 2, 3, 4, 5, 6, 7] : List Nat), decide (i ≤ m) = true := by
      intro i hi
      have : i ≤ 7 := by revert i; decide
      simp only [decide_eq_true_eq]
      omega
    rw [List.filter_eq_self.mpr hall, Nat.min_eq_left (by omega)]
    rfl

/-- The thresholds that a level reaches are those up to one of them. -/
theorem classThreshold_le_iff (p x : Nat) {i : Nat} (hi : 1 ≤ i) : classThreshold p i ≤ x ↔ i ≤ (x - 16) / (16 + 2 * p) := by
  have hpos : 16 + 2 * p ≤ (16 + 2 * p) * i := Nat.le_mul_of_pos_right _ hi
  rw [classThreshold, Nat.le_div_iff_mul_le (by omega), Nat.mul_comm i]
  omega

/-- The raw class of a level is the number of the thresholds that it reaches within `band` (R129). -/
theorem le_rawClass_iff (p band level : Nat) {n : Nat} (hn : 1 ≤ n) (hn' : n ≤ 7) :
    n ≤ (rawClass p band level).val ↔ classThreshold p n ≤ level + band := by
  have hfilter : ([1, 2, 3, 4, 5, 6, 7] : List Nat).filter (fun i => decide (classThreshold p i ≤ level + band)) =
      ([1, 2, 3, 4, 5, 6, 7] : List Nat).filter (fun i => decide (i ≤ (level + band - 16) / (16 + 2 * p))) := by
    refine List.filter_congr fun i hi => ?_
    have hi' : 1 ≤ i := by revert i; decide
    exact decide_eq_decide.mpr (classThreshold_le_iff p _ hi')
  have hval : (rawClass p band level).val = min 7 ((level + band - 16) / (16 + 2 * p)) := by
    rw [rawClass, hfilter, length_filter_le]
    exact Nat.mod_eq_of_lt (by omega)
  rw [hval, classThreshold_le_iff p _ hn]
  omega

/-- Settles O42: the raw classes count thresholds, and the held class takes one reading to confirm another. -/
theorem heldClassMovesAfterTwoReadings : Obligations.HeldClassMovesAfterTwoReadings := by
  refine ⟨fun p level n _ _ hn hn' => ⟨?_, ?_⟩, fun _ _ _ _ => rfl, fun h lr lf rising falling hle => ⟨fun h₁ h₂ => ?_,
    fun h₁ h₂ => ?_, fun h₁ h₂ => ?_⟩⟩
  · exact le_rawClass_iff p 0 level hn hn'
  · rw [le_rawClass_iff p 8 level hn hn', classThreshold]
    omega
  · exact if_pos ⟨h₁, h₂⟩
  · have hr : ¬ (h < rising ∧ h < lr) := fun hup => by
      have := hup.1
      omega
    exact (if_neg hr).trans (if_pos ⟨h₁, h₂⟩)
  · exact (if_neg h₁).trans (if_neg h₂)

end Sys2Proof.Machine
end

section
/-! The end of a counting window in its pair and its scan (R123 to R125, R127). -/

namespace Sys2Proof.Machine

open Sys2Proof

set_option Elab.async false

/-! ### Windows and pairs -/

/-- A window is void (R123). -/
def windowVoid (probe reference : Nat) : Bool := decide (65535 < probe ∨ 65535 < reference)

theorem windowCode_of_void {probe reference : Nat} (h : windowVoid probe reference = true) : windowCode probe reference = none :=
  if_pos (of_decide_eq_true h)

theorem levelCode_eq (probe reference : Nat) : levelCode probe reference = min 255 ((probe - reference) / 16) := by
  unfold levelCode
  split
  · omega
  · split <;> omega

theorem windowCode_of_not {probe reference : Nat} (h : windowVoid probe reference = false) :
    windowCode probe reference = some (min 255 ((probe - reference) / 16)) := by
  rw [windowCode, if_neg (of_decide_eq_false h), levelCode_eq]

/-- What a window writes in its probe's record (R123, R124). -/
theorem Probe.afterWindow_eq (hop : BitVec 3) (probe reference : Nat) (r : Probe) :
    r.afterWindow hop probe reference =
      { r with hop := hop, overflow := r.overflow || windowVoid probe reference
               counts := if windowVoid probe reference then r.counts else some (probe, reference) } := by
  unfold Probe.afterWindow
  cases h : windowVoid probe reference with
  | true => simp [windowCode_of_void h]
  | false => simp [windowCode_of_not h]

/-- The first window of a pair gives a code (R125). -/
theorem judgePair_of_half {first : Option Nat} {probe reference : Nat} (hf : first = none) (hv : windowVoid probe reference = false) :
    judgePair first (windowCode probe reference) = .half (min 255 ((probe - reference) / 16)) := by
  rw [hf, windowCode_of_not hv]
  rfl

theorem judgePair_of_accepted {first : Option Nat} {f probe reference : Nat} (hf : first = some f)
    (hv : windowVoid probe reference = false) (h₁ : min 255 ((probe - reference) / 16) ≤ f + 4)
    (h₂ : f ≤ min 255 ((probe - reference) / 16) + 4) :
    judgePair first (windowCode probe reference) = .accepted (min 255 ((probe - reference) / 16)) := by
  rw [hf, windowCode_of_not hv]
  exact if_pos ⟨h₁, h₂⟩

/-- A void window drops its pair, and so does a second code more than 4 from the first (R125). -/
theorem judgePair_of_dropped {first : Option Nat} {probe reference : Nat}
    (h : windowVoid probe reference = true ∨ ∃ f, first = some f ∧
      (f + 4 < min 255 ((probe - reference) / 16) ∨ min 255 ((probe - reference) / 16) + 4 < f)) :
    judgePair first (windowCode probe reference) = .dropped := by
  cases hv : windowVoid probe reference with
  | true =>
    rw [windowCode_of_void hv]
    cases first <;> rfl
  | false =>
    rw [hv] at h
    obtain h | ⟨f, hf, hdist⟩ := h
    · cases h
    · rw [hf, windowCode_of_not hv]
      exact if_neg (by omega)

/-! ### The record of a window -/

theorem setGroup_recordWindow (g : ProbeGroup) (c : Scan) (p r : Nat) (x : Option Scan) (s : State) :
    setGroup g { (recordWindow g c p r s).gauge.group g with scan := x } (recordWindow g c p r s) =
      setGroup g { s.gauge.group g with hop := (s.gauge.group g).hop + 1, scan := x }
        (setProbe c.probe ((s.gauge.probes[c.probe]).afterWindow (s.gauge.group g).hop p r) s) := by
  cases g <;> rfl

/-- The record of the probe of a window. -/
theorem recordWindow_probe (g : ProbeGroup) (c : Scan) (p r : Nat) (s : State) :
    (recordWindow g c p r s).gauge.probes[c.probe] = (s.gauge.probes[c.probe]).afterWindow (s.gauge.group g).hop p r := by
  cases g <;> exact Vector.getElem_set_self _

/-- A window recorded, and its probe's record then written over. -/
theorem setProbe_recordWindow (g : ProbeGroup) (c : Scan) (p r : Nat) (x : Probe) (s : State) :
    setProbe c.probe x (recordWindow g c p r s) =
      setGroup g { s.gauge.group g with hop := (s.gauge.group g).hop + 1 } (setProbe c.probe x s) := by
  have hset : ∀ y : Probe, (s.gauge.probes.set c.probe y).set c.probe x = s.gauge.probes.set c.probe x :=
    fun y => Vector.set_set y c.probe.isLt
  cases g <;> simp only [setProbe, recordWindow, setGroup, hset]

/-- The scan goes to a probe after the one that is done. -/
theorem setGroup_setGroup_scan (g : ProbeGroup) (p : Fin 6) (x : Probe) (y : Option Scan) (s : State) :
    setGroup g { (setGroup g { s.gauge.group g with hop := (s.gauge.group g).hop + 1 } (setProbe p x s)).gauge.group g with scan := y }
        (setGroup g { s.gauge.group g with hop := (s.gauge.group g).hop + 1 } (setProbe p x s)) =
      setGroup g { s.gauge.group g with hop := (s.gauge.group g).hop + 1, scan := y } (setProbe p x s) := by
  cases g <;> rfl

/-! ### The order of a scan -/

theorem State.sumpBScanned_iff (s : State) : s.sumpBScanned = true ↔ s.straps.pumps.val ∈ ([2, 3, 6, 7] : List Nat) := by
  unfold State.sumpBScanned StrapLevels.fitted
  generalize s.straps.pumps = p
  revert p
  decide

theorem State.nextProbe_of_more {s : State} {p next : Fin 6}
    (h : p = 0 ∧ next = 1 ∨ p = 1 ∧ next = 2 ∨ p = 2 ∧ next = 3 ∧ s.straps.pumps.val ∈ ([2, 3, 6, 7] : List Nat) ∨
      p = 4 ∧ next = 5) : s.nextProbe p = some next := by
  obtain ⟨rfl, rfl⟩ | ⟨rfl, rfl⟩ | ⟨rfl, rfl, hb⟩ | ⟨rfl, rfl⟩ := h
  · rfl
  · rfl
  · exact if_pos (s.sumpBScanned_iff.mpr hb)
  · rfl

theorem doneProbe_of_more {g : ProbeGroup} {p q : Fin 6} {s : State} (h : s.nextProbe p = some q) :
    doneProbe g p s = setGroup g { s.gauge.group g with scan := some (Scan.begin q) } s := by
  simp only [doneProbe, h]

theorem doneProbe_of_last {g : ProbeGroup} {p : Fin 6} {s : State} (h : s.nextProbe p = none) : doneProbe g p s = endScan g s := by
  simp only [doneProbe, h]

theorem dropPair_of_again {g : ProbeGroup} {c : Scan} (h : c.tried < 2) (s : State) :
    dropPair g c s =
      setGroup g { s.gauge.group g with scan := some { c with first := none, tried := c.tried + 1, windowTime := 0 } } s :=
  if_neg (by omega)

theorem dropPair_of_third {g : ProbeGroup} {c : Scan} (h : 2 ≤ c.tried) (s : State) :
    dropPair g c s = doneProbe g c.probe (setProbe c.probe { s.gauge.probes[c.probe] with unsteady := true } s) :=
  if_pos (by omega)

/-! ### The obligations on pairs -/

/-- An accepted pair leaves its probe's record with its second code, and the scan goes on (R125). -/
theorem endCountingWindow_accepts {g : ProbeGroup} {c : Scan} {s : State} {p r code : Nat}
    (h : (s.gauge.group g).scan = some c) (hv : windowVoid p r = false)
    (hj : judgePair c.first (windowCode p r) = .accepted code) :
    endCountingWindow g p r s = doneProbe g c.probe
      (setGroup g { s.gauge.group g with hop := (s.gauge.group g).hop + 1 }
        (setProbe c.probe { lastCode := some code, counts := some (p, r), hop := (s.gauge.group g).hop, overflow := false
                            unsteady := false } s)) := by
  rw [endCountingWindow_of_accepted h hj, recordWindow_probe, Probe.afterWindow_eq, hv, setProbe_recordWindow]
  rfl

/-- A third pair dropped leaves its probe UNSTEADY, and the scan goes on (R125). -/
theorem endCountingWindow_drops_third {g : ProbeGroup} {c : Scan} {s : State} {p r : Nat}
    (h : (s.gauge.group g).scan = some c) (ht : 2 ≤ c.tried) (hj : judgePair c.first (windowCode p r) = .dropped) :
    endCountingWindow g p r s = doneProbe g c.probe
      (setGroup g { s.gauge.group g with hop := (s.gauge.group g).hop + 1 }
        (setProbe c.probe
          { s.gauge.probes[c.probe] with
            hop := (s.gauge.group g).hop, overflow := (s.gauge.probes[c.probe]).overflow || windowVoid p r, unsteady := true
            counts := if windowVoid p r then (s.gauge.probes[c.probe]).counts else some (p, r) } s)) := by
  rw [endCountingWindow_of_dropped h hj, dropPair_of_third ht, recordWindow_probe, Probe.afterWindow_eq, setProbe_recordWindow]

theorem windowVoid_eq_false {probe reference : Nat} (hp : probe ≤ 65535) (hr : reference ≤ 65535) :
    windowVoid probe reference = false := decide_eq_false (by omega)

/-- A first code begins a pair (R125). -/
theorem endCountingWindow_halves {g : ProbeGroup} {c : Scan} {s : State} {p r : Nat} (h : (s.gauge.group g).scan = some c)
    (hf : c.first = none) (hv : windowVoid p r = false) :
    endCountingWindow g p r s =
      setGroup g { s.gauge.group g with
          hop := (s.gauge.group g).hop + 1
          scan := some { c with first := some (min 255 ((p - r) / 16)), windowTime := 0 } }
        (setProbe c.probe
          { s.gauge.probes[c.probe] with
            hop := (s.gauge.group g).hop, overflow := (s.gauge.probes[c.probe]).overflow || windowVoid p r
            counts := if windowVoid p r then (s.gauge.probes[c.probe]).counts else some (p, r) } s) := by
  rw [endCountingWindow_of_half h (judgePair_of_half hf hv), setGroup_recordWindow, Probe.afterWindow_eq]

/-- A pair dropped before the third has another tried (R125). -/
theorem endCountingWindow_drops_early {g : ProbeGroup} {c : Scan} {s : State} {p r : Nat}
    (h : (s.gauge.group g).scan = some c) (ht : c.tried < 2) (hj : judgePair c.first (windowCode p r) = .dropped) :
    endCountingWindow g p r s =
      setGroup g { s.gauge.group g with
          hop := (s.gauge.group g).hop + 1, scan := some { c with first := none, tried := c.tried + 1, windowTime := 0 } }
        (setProbe c.probe
          { s.gauge.probes[c.probe] with
            hop := (s.gauge.group g).hop, overflow := (s.gauge.probes[c.probe]).overflow || windowVoid p r
            counts := if windowVoid p r then (s.gauge.probes[c.probe]).counts else some (p, r) } s) := by
  rw [endCountingWindow_of_dropped h hj, dropPair_of_again ht, setGroup_recordWindow, Probe.afterWindow_eq]

/-- The order of a scan does not depend on the records. -/
theorem nextProbe_windowed (g : ProbeGroup) (x : GaugeGroup) (p q : Fin 6) (r : Probe) (s : State) :
    (setGroup g x (setProbe q r s)).nextProbe p = s.nextProbe p := by
  cases g <;> rfl

/-- Settles O40, by the judgement of the window in its pair. -/
theorem countingWindowRecordsAndPairs : Obligations.CountingWindowRecordsAndPairs := by
  refine ⟨fun g p r s c hrun hc hmore hfar => ?_, fun g p r f s c next hrun hc hf hp hr => ?_, fun g p r s c next hrun hc ht => ?_⟩
  · intro void rec
    have he : exec (.countingWindowEnd g p r) s = .next (follow (endCountingWindow g p r s)) := exec_event rfl hrun
    by_cases hhalf : windowVoid p r = false ∧ c.first = none
    · obtain ⟨hv, hf⟩ := hhalf
      rw [he, endCountingWindow_halves hc hf hv, if_pos (show void = false ∧ c.first = none from ⟨hv, hf⟩)]
      rfl
    · have ht : c.tried < 2 := hmore.resolve_right fun ⟨hf, hp, hr⟩ => hhalf ⟨windowVoid_eq_false hp hr, hf⟩
      have hj : judgePair c.first (windowCode p r) = .dropped := by
        refine judgePair_of_dropped ?_
        cases hf : c.first with
        | none => exact .inl (by simpa [hf] using hhalf)
        | some f =>
          obtain h | h | h | h := hfar f hf
          · exact .inl (decide_eq_true (.inl h))
          · exact .inl (decide_eq_true (.inr h))
          · exact .inr ⟨f, rfl, .inl h⟩
          · exact .inr ⟨f, rfl, .inr h⟩
      rw [he, endCountingWindow_drops_early hc ht hj, if_neg (show ¬ (void = false ∧ c.first = none) from hhalf)]
      rfl
  · intro code h₁ h₂ hnext
    have he : exec (.countingWindowEnd g p r) s = .next (follow (endCountingWindow g p r s)) := exec_event rfl hrun
    have hv := windowVoid_eq_false hp hr
    rw [he, endCountingWindow_accepts hc hv (judgePair_of_accepted hf hv h₁ h₂),
      doneProbe_of_more (q := next) (by rw [nextProbe_windowed]; exact State.nextProbe_of_more hnext), setGroup_setGroup_scan]
    rfl
  · intro code void rec hdrop hnext
    have he : exec (.countingWindowEnd g p r) s = .next (follow (endCountingWindow g p r s)) := exec_event rfl hrun
    rw [he, endCountingWindow_drops_third hc ht (judgePair_of_dropped hdrop),
      doneProbe_of_more (q := next) (by rw [nextProbe_windowed]; exact State.nextProbe_of_more hnext), setGroup_setGroup_scan]
    rfl

end Sys2Proof.Machine
end

section
/-! What a group reading forms and what the end of a scan leaves (R127 to R136). -/

namespace Sys2Proof.Machine

open Sys2Proof

set_option Elab.async false

/-! ### The level (R128 to R131) -/

/-- The level that a reading forms and its mark DISAGREE, where it forms one (R127, R128). -/
def levelFormed (x y : Probe) : Option (Nat × Bool) :=
  if x.unsteady = true ∧ y.unsteady = true then none
  else match x.lastCode, y.lastCode with
    | some x, some y => some (max x y, decide (x + 16 < y ∨ y + 16 < x))
    | some x, none => some (x, false)
    | none, some y => some (y, false)
    | none, none => none

/-- The level that the reading of a group forms. -/
def State.levelFormed (s : State) (g : ProbeGroup) : Option (Nat × Bool) :=
  Machine.levelFormed s.gauge.probes[(levelProbes g).1] s.gauge.probes[(levelProbes g).2]

/-- A group record with the level that a reading forms, if it forms one. -/
def GaugeGroup.reads (p : Nat) (f : Option (Nat × Bool)) (r : GaugeGroup) : GaugeGroup :=
  match f with
  | none => r
  | some (l, disagree) => r.read p l disagree

/-- What a group takes from the level that its reading forms. -/
def takeLevel (g : ProbeGroup) (l : Nat) (d : Bool) (s : State) : State :=
  let s := setGroup g ((s.gauge.group g).read s.straps.probe.val l d) s
  match g with
  | .polder => readFlood s
  | .outfall => s

theorem not_or_not_of_not_and : ∀ {a b : Bool}, ¬ (a = true ∧ b = true) → (!a || !b) = true := by decide

theorem not_or_not_of_and : ∀ {a b : Bool}, (a = true ∧ b = true) → (!a || !b) = false := by decide

/-- A reading that forms a level hands it on, and any other changes nothing (R127). -/
theorem readLevel_eq (g : ProbeGroup) (s : State) :
    readLevel g s = match s.levelFormed g with
      | none => s
      | some (l, d) => takeLevel g l d s := by
  unfold readLevel State.formsLevel State.levelFormed Machine.levelFormed
  by_cases h : (s.gauge.probes[(levelProbes g).1]).unsteady = true ∧ (s.gauge.probes[(levelProbes g).2]).unsteady = true
  · rw [not_or_not_of_and h, if_pos h]
    rfl
  · rw [not_or_not_of_not_and h, if_neg h]
    cases (s.gauge.probes[(levelProbes g).1]).lastCode <;> cases (s.gauge.probes[(levelProbes g).2]).lastCode <;> rfl

/-- The flood count after a reading with a held class (R131). -/
def floodCountAfter (count : Nat) (held : Fin 8) : Nat := if held = 7 then min 4 (count + 1) else 0

/-- The flood alarm after it. -/
def floodAfter (flood : Bool) (count : Nat) (held : Fin 8) : Bool :=
  if flood then decide (6 ≤ held.val) else decide (floodCountAfter count held = 4)

/-- What a polder reading that forms a level makes of the flood alarm (R131). -/
theorem readFlood_eq {s : State} {c : Fin 8} (h : s.gauge.polder.heldClass = some c) :
    readFlood s =
      { s with
        gauge := { s.gauge with
          floodCount := floodCountAfter s.gauge.floodCount c, flood := floodAfter s.gauge.flood s.gauge.floodCount c }
        port := if floodAfter s.gauge.flood s.gauge.floodCount c = s.gauge.flood then s.port
                else { s.port with flags := s.port.flags ||| 0b000100 } } := by
  unfold readFlood
  rw [h]
  dsimp only
  cases hf : s.gauge.flood with
  | false =>
    by_cases h4 : floodCountAfter s.gauge.floodCount c = 4
    · have ha : floodAfter false s.gauge.floodCount c = true := decide_eq_true h4
      rw [ha, if_pos ⟨rfl, h4⟩]
      rfl
    · have ha : floodAfter false s.gauge.floodCount c = false := decide_eq_false h4
      rw [ha, if_neg (fun hn => h4 hn.2), if_neg (fun hn => absurd hn.1 Bool.false_ne_true), if_pos rfl, ← hf]
      rfl
  | true =>
    rw [if_neg (fun hn => absurd hn.1 (by decide))]
    by_cases h6 : 6 ≤ c.val
    · have ha : floodAfter true s.gauge.floodCount c = true := decide_eq_true h6
      have hn : ¬ (true = true ∧ c ≤ 5) := fun hn => by
        have := Fin.le_def.mp hn.2
        have e : (5 : Fin 8).val = 5 := rfl
        omega
      rw [ha, if_neg hn, if_pos rfl, ← hf]
      rfl
    · have ha : floodAfter true s.gauge.floodCount c = false := decide_eq_false h6
      have hc : c ≤ 5 := by
        rw [Fin.le_def]
        have e : (5 : Fin 8).val = 5 := rfl
        omega
      rw [ha, if_pos ⟨rfl, hc⟩]
      rfl

/-! ### The sumps (R132) -/

/-- A sump judged by its probe, in the words of the statements. -/
theorem Sump.judge_eq (r : Probe) (u : Sump) :
    u.judge r = if r.unsteady = true then u else match r.lastCode with
      | none => u
      | some x =>
        if u.low = true then (if 40 ≤ x then (if u.run = 0 then ⟨true, 1⟩ else ⟨false, 0⟩) else (⟨true, 0⟩ : Sump))
        else if x < 24 then (if u.run = 0 then ⟨false, 1⟩ else ⟨true, 0⟩) else ⟨false, 0⟩ := by
  have hread (x : Nat) : u.read x =
      if u.low = true then (if 40 ≤ x then (if u.run = 0 then ⟨true, 1⟩ else ⟨false, 0⟩) else (⟨true, 0⟩ : Sump))
      else if x < 24 then (if u.run = 0 then ⟨false, 1⟩ else ⟨true, 0⟩) else ⟨false, 0⟩ := by
    unfold Sump.read
    by_cases hr : u.run = 0
    · rw [hr]
      rfl
    · rw [if_pos (show 2 ≤ u.run + 1 by omega), if_neg hr, if_pos (show 2 ≤ u.run + 1 by omega), if_neg hr]
  unfold Sump.judge
  cases r.unsteady <;> cases r.lastCode
  · rfl
  · exact hread _
  · rfl
  · rfl

/-! ### The sampling mode after a reading (R135) -/

/-- The end of a scan after its reading: the sampling mode follows, and in CONTINUOUS the next scan begins. -/
def resumed (s : State) : State :=
  match (syncSampling s).gauge.sampling with
  | .continuous => beginScans (syncSampling s)
  | .periodic => syncSampling s

theorem endScan_eq (g : ProbeGroup) (s : State) :
    endScan g s = resumed (groupReading g (setGroup g { s.gauge.group g with scan := none } s)) := rfl

theorem begunOutfall_idem (s : State) : (beginScans s).begunOutfall = s.begunOutfall := by
  have ho : (beginScans s).outfallScanned = s.outfallScanned := rfl
  have hg : (beginScans s).gauge.outfall = s.begunOutfall := rfl
  rw [State.begunOutfall, ho, hg, State.begunOutfall]
  split
  · exact GaugeGroup.beginScan_idem _ _
  · rfl

theorem beginScans_idem (s : State) : beginScans (beginScans s) = beginScans s := by
  have h := begunOutfall_idem s
  have hp : (beginScans s).gauge.polder.beginScan 0 = (beginScans s).gauge.polder := GaugeGroup.beginScan_idem _ _
  have e : beginScans (beginScans s) = { beginScans s with gauge := { (beginScans s).gauge with
      polder := (beginScans s).gauge.polder.beginScan 0, outfall := (beginScans s).begunOutfall } } := rfl
  rw [e, h, hp]
  rfl

theorem resumed_of_continuous {s : State} (h : s.wantsContinuous = true) :
    ∃ w, resumed s = { s with gauge := { s.gauge with
      sampling := .continuous, waitCount := w, polder := s.gauge.polder.beginScan 0, outfall := s.begunOutfall } } := by
  unfold resumed
  cases hs : s.gauge.sampling with
  | continuous =>
    refine ⟨s.gauge.waitCount, ?_⟩
    rw [syncSampling_of_continuous hs h]
    simp only [hs]
    rw [← hs]
    rfl
  | periodic =>
    refine ⟨0, ?_⟩
    rw [syncSampling_of_periodic hs h]
    exact beginScans_idem _

theorem resumed_of_periodic {s : State} (h : s.wantsContinuous = false) :
    ∃ w, resumed s = { s with gauge := { s.gauge with sampling := .periodic, waitCount := w } } := by
  have he : ∃ w, syncSampling s = { s with gauge := { s.gauge with sampling := .periodic, waitCount := w } } := by
    unfold syncSampling
    rw [h]
    cases hs : s.gauge.sampling with
    | continuous => exact ⟨0, rfl⟩
    | periodic =>
      have hsame : s = { s with gauge := { s.gauge with sampling := .periodic, waitCount := s.gauge.waitCount } } := by
        rw [← hs]
      exact ⟨s.gauge.waitCount, hsame⟩
  obtain ⟨w, hw⟩ := he
  exact ⟨w, by rw [resumed, hw]⟩

theorem beginScan_heldClass (r : GaugeGroup) (p : Fin 6) : (r.beginScan p).heldClass = r.heldClass := by
  rw [GaugeGroup.beginScan_eq]

/-- The wish for CONTINUOUS does not look at the scans (R135). -/
theorem wantsContinuous_of_scans (s : State) (m : Sampling) (w : Nat) :
    ({ s with gauge := { s.gauge with
      sampling := m, waitCount := w, polder := s.gauge.polder.beginScan 0, outfall := s.begunOutfall } } : State).wantsContinuous =
      s.wantsContinuous := by
  unfold State.wantsContinuous
  simp only [beginScan_heldClass]
  rfl

/-- The sampling mode that has followed a reading stands (R135). -/
theorem follow_resumed_gauge (s : State) : (follow (resumed s)).gauge = (resumed s).gauge := by
  rw [follow_gauge]
  cases h : s.wantsContinuous with
  | true =>
    obtain ⟨w, hw⟩ := resumed_of_continuous h
    have hwant : (resumed s).wantsContinuous = true := by
      rw [← h, hw]
      exact wantsContinuous_of_scans s .continuous w
    have hs : (resumed s).gauge.sampling = .continuous := by rw [hw]
    rw [syncSampling_of_continuous hs hwant]
  | false =>
    obtain ⟨w, hw⟩ := resumed_of_periodic h
    have hwant : (resumed s).wantsContinuous = false := by
      rw [← h, hw]
      rfl
    have hs : (resumed s).gauge.sampling = .periodic := by rw [hw]
    unfold syncSampling
    rw [hs, hwant]

end Sys2Proof.Machine
end

section
/-! What a group reading and the end of its scan write (R127 to R136). -/

namespace Sys2Proof.Machine

open Sys2Proof

set_option Elab.async false

/-! ### The reading -/

theorem GaugeGroup.reads_scan (p : Nat) (f : Option (Nat × Bool)) (r : GaugeGroup) : (r.reads p f).scan = r.scan := by
  cases f <;> rfl

theorem GaugeGroup.reads_hop (p : Nat) (f : Option (Nat × Bool)) (r : GaugeGroup) : (r.reads p f).hop = r.hop := by
  cases f <;> rfl

/-- The held class of the polder group after a reading at a level. -/
def State.heldNext (s : State) (l : Nat) : Fin 8 :=
  heldAfter s.gauge.polder.heldClass s.gauge.polder.lastRising s.gauge.polder.lastFalling (rawClass s.straps.probe.val 0 l)
    (rawClass s.straps.probe.val 8 l)

/-- What a polder reading makes of the flood alarm and the flags, with the level it forms (R131). -/
structure FloodRead (s : State) (f : Option (Nat × Bool)) (flood : Bool) (count : Nat) (port : Port) : Prop where
  none : f = none → flood = s.gauge.flood ∧ count = s.gauge.floodCount ∧ port = s.port
  some : ∀ l d, f = some (l, d) → count = floodCountAfter s.gauge.floodCount (s.heldNext l) ∧
    flood = floodAfter s.gauge.flood s.gauge.floodCount (s.heldNext l) ∧
    port = if flood = s.gauge.flood then s.port else { s.port with flags := s.port.flags ||| 0b000100 }

theorem readLevel_polder (s : State) :
    ∃ flood count port, FloodRead s (s.levelFormed .polder) flood count port ∧
      readLevel .polder s = { s with
        gauge := { s.gauge with
          polder := s.gauge.polder.reads s.straps.probe.val (s.levelFormed .polder), flood := flood, floodCount := count }
        port := port } := by
  rw [readLevel_eq]
  cases s.levelFormed .polder with
  | none => exact ⟨_, _, _, ⟨fun _ => ⟨rfl, rfl, rfl⟩, nofun⟩, rfl⟩
  | some f =>
    obtain ⟨l, d⟩ := f
    have hheld : (setGroup .polder ((s.gauge.group .polder).read s.straps.probe.val l d) s).gauge.polder.heldClass =
        some (s.heldNext l) := rfl
    refine ⟨_, _, _, ⟨nofun, fun l' d' h => ?_⟩, readFlood_eq hheld⟩
    cases h
    exact ⟨rfl, rfl, rfl⟩

theorem readLevel_outfall (s : State) :
    readLevel .outfall s =
      { s with gauge := { s.gauge with outfall := s.gauge.outfall.reads s.straps.probe.val (s.levelFormed .outfall) } } := by
  rw [readLevel_eq]
  cases s.levelFormed .outfall with
  | none => rfl
  | some f => rfl

/-- Of a pump stopped urgently. -/
structure RestedPump (s t : State) (k : PumpIx) : Prop where
  pump : t.pump k = (s.pump k).toResting
  player : t.player k = Player.idle 0
  duty : t.drives.duty[k] = 0

/-- What the reading of a group writes. -/
structure GroupRead (g : ProbeGroup) (s t : State) : Prop where
  units : t = { s with
    pumps := t.pumps, players := t.players, drives := t.drives, port := t.port, gauge := t.gauge }
  probes : t.gauge.probes = s.gauge.probes
  group : t.gauge.group g = (s.gauge.group g).reads s.straps.probe.val (s.levelFormed g)
  outfall : g = .outfall → t.gauge.flood = s.gauge.flood ∧ t.gauge.floodCount = s.gauge.floodCount ∧ t.port = s.port ∧
    t.gauge.polder = s.gauge.polder ∧ t.gauge.sumpA = s.gauge.sumpA ∧ t.gauge.sumpB = s.gauge.sumpB
  polder : g = .polder → FloodRead s (s.levelFormed .polder) t.gauge.flood t.gauge.floodCount t.port ∧
    t.gauge.outfall = s.gauge.outfall ∧ t.gauge.sumpA = s.gauge.sumpA.judge s.gauge.probes[2] ∧
    t.gauge.sumpB = if s.sumpBScanned then s.gauge.sumpB.judge s.gauge.probes[3] else s.gauge.sumpB
  stops : ∀ k, (t.sumpLow k = true ∧ s.sumpLow k = false) ∧ (s.pump k).state.active = true → RestedPump s t k
  others : ∀ k, ¬ ((t.sumpLow k = true ∧ s.sumpLow k = false) ∧ (s.pump k).state.active = true) →
    t.pump k = s.pump k ∧ t.player k = s.player k

/-- A reading that has judged the sumps, with the stops that follow (R103, R133). -/
theorem stopLowPumps_read (b s : State) :
    (stopLowPumps b s).gauge = s.gauge ∧ (stopLowPumps b s).port = s.port ∧
      stopLowPumps b s = { s with pumps := (stopLowPumps b s).pumps, players := (stopLowPumps b s).players
                                  drives := (stopLowPumps b s).drives } := by
  obtain ⟨_, _, _, e⟩ := stopLowPumps_changes b s
  rw [e]
  exact ⟨rfl, rfl, rfl⟩

theorem units_of_stops {s x r : State} (hx : x = { s with gauge := x.gauge, port := x.port })
    (hr : r = { x with pumps := r.pumps, players := r.players, drives := r.drives }) (hg : r.gauge = x.gauge)
    (hp : r.port = x.port) :
    r = { s with pumps := r.pumps, players := r.players, drives := r.drives, port := r.port, gauge := r.gauge } := by
  rw [hg, hp]
  exact hr.trans (congrArg (fun y : State => { y with pumps := r.pumps, players := r.players, drives := r.drives }) hx)

theorem groupReading_polder (s : State) : GroupRead .polder s (groupReading .polder s) := by
  obtain ⟨flood, count, port, hflood, hlevel⟩ := readLevel_polder s
  obtain ⟨hgauge, hport, hunits⟩ := stopLowPumps_read s (readSumps (readLevel .polder s))
  have hx : readSumps (readLevel .polder s) = { s with
      gauge := { s.gauge with
        polder := s.gauge.polder.reads s.straps.probe.val (s.levelFormed .polder), flood := flood, floodCount := count
        sumpA := s.gauge.sumpA.judge s.gauge.probes[2]
        sumpB := if s.sumpBScanned then s.gauge.sumpB.judge s.gauge.probes[3] else s.gauge.sumpB }
      port := port } := by
    rw [hlevel]
    rfl
  have hstops (k : PumpIx) := stopLowPumps_at s (readSumps (readLevel .polder s)) k
  have hlow (k : PumpIx) : (stopLowPumps s (readSumps (readLevel .polder s))).sumpLow k =
      (readSumps (readLevel .polder s)).sumpLow k := by
    unfold State.sumpLow
    rw [hgauge]
  have hpump (k : PumpIx) : (readSumps (readLevel .polder s)).pump k = s.pump k := by
    rw [hx]
    rfl
  have hplayer (k : PumpIx) : (readSumps (readLevel .polder s)).player k = s.player k := by
    rw [hx]
    rfl
  have hit (k : PumpIx) : ((readSumps (readLevel .polder s)).sumpLow k && !s.sumpLow k) = true ∧
      ((readSumps (readLevel .polder s)).pump k).state.active = true ↔
      ((groupReading .polder s).sumpLow k = true ∧ s.sumpLow k = false) ∧ (s.pump k).state.active = true := by
    rw [show groupReading .polder s = stopLowPumps s (readSumps (readLevel .polder s)) from rfl, hlow, hpump]
    simp
  have hr : (groupReading .polder s).gauge = (readSumps (readLevel .polder s)).gauge := hgauge
  refine ⟨units_of_stops (by rw [hx]) hunits hgauge hport, ?_, ?_, nofun, fun _ => ⟨?_, ?_, ?_, ?_⟩, fun k hk => ?_, fun k hk => ?_⟩
  · rw [hr, hx]
  · rw [hr, hx]
    rfl
  · rw [hr, show (groupReading .polder s).port = _ from hport, hx]
    exact hflood
  · rw [hr, hx]
  · rw [hr, hx]
  · rw [hr, hx]
  · obtain ⟨hp, hq, hd⟩ := hstops k
    have hk' := (hit k).mpr hk
    exact ⟨hp.trans ((if_pos hk').trans (congrArg _ (hpump k))), hq.trans (if_pos hk'), hd.trans (if_pos hk')⟩
  · obtain ⟨hp, hq, _⟩ := hstops k
    have hk' := mt (hit k).mp hk
    exact ⟨hp.trans ((if_neg hk').trans (hpump k)), hq.trans ((if_neg hk').trans (hplayer k))⟩

theorem groupReading_outfall (s : State) : GroupRead .outfall s (groupReading .outfall s) := by
  have hr : groupReading .outfall s =
      { s with gauge := { s.gauge with outfall := s.gauge.outfall.reads s.straps.probe.val (s.levelFormed .outfall) } } :=
    readLevel_outfall s
  have hlow (k : PumpIx) : (groupReading .outfall s).sumpLow k = s.sumpLow k := by
    rw [hr]
    rfl
  refine ⟨?_, ?_, ?_, fun _ => ?_, nofun, fun k hk => ?_, fun k _ => ?_⟩
  · rw [hr]
  · rw [hr]
  · rw [hr]
    rfl
  · rw [hr]
    exact ⟨rfl, rfl, rfl, rfl, rfl, rfl⟩
  · obtain ⟨⟨h₁, h₂⟩, _⟩ := hk
    rw [hlow, h₂] at h₁
    cases h₁
  · rw [hr]
    exact ⟨rfl, rfl⟩

theorem groupReading_read (g : ProbeGroup) (s : State) : GroupRead g s (groupReading g s) := by
  cases g with
  | polder => exact groupReading_polder s
  | outfall => exact groupReading_outfall s

/-! ### The sampling mode and the next scan -/

/-- What the following of a reading writes (R69, R135). -/
structure Resumes (r t : State) : Prop where
  units : t = { r with arb := t.arb, gauge := t.gauge }
  gauge : t.gauge = { r.gauge with
    sampling := t.gauge.sampling, waitCount := t.gauge.waitCount
    polder := { r.gauge.polder with scan := t.gauge.polder.scan }
    outfall := { r.gauge.outfall with scan := t.gauge.outfall.scan } }
  periodic : t.gauge.sampling = .periodic →
    t.gauge.polder.scan = r.gauge.polder.scan ∧ t.gauge.outfall.scan = r.gauge.outfall.scan
  continuous : t.gauge.sampling = .continuous → (r.gauge.polder.scan = none → t.gauge.polder.scan = some (Scan.begin 0)) ∧
    (r.gauge.outfall.scan = none → r.outfallScanned = true → t.gauge.outfall.scan = some (Scan.begin 4))

theorem Resumes.group {r t : State} (h : Resumes r t) (g : ProbeGroup) :
    t.gauge.group g = { r.gauge.group g with scan := (t.gauge.group g).scan } := by
  cases g with
  | polder => exact congrArg Gauge.polder h.gauge
  | outfall => exact congrArg Gauge.outfall h.gauge

theorem begunOutfall_eq (s : State) : s.begunOutfall = { s.gauge.outfall with scan := s.begunOutfall.scan } := by
  unfold State.begunOutfall
  split
  · exact GaugeGroup.beginScan_eq _ _
  · rfl

theorem resumes_units {r z t : State} {v : Gauge} (hz : z = { r with gauge := v })
    (ht : t = { z with arb := t.arb, gauge := t.gauge }) : t = { r with arb := t.arb, gauge := t.gauge } :=
  ht.trans (congrArg (fun y : State => { y with arb := t.arb, gauge := t.gauge }) hz)

theorem follow_resumed (r : State) : Resumes r (follow (resumed r)) := by
  have hg := follow_resumed_gauge r
  have hframe := follow_frame (resumed r)
  cases hw : r.wantsContinuous with
  | true =>
    obtain ⟨w, e⟩ := resumed_of_continuous hw
    refine ⟨?_, ?_, fun h => ?_, fun _ => ⟨fun hn => ?_, fun hn ho => ?_⟩⟩
    · exact resumes_units e hframe
    · rw [hg, e]
      dsimp only
      rw [← GaugeGroup.beginScan_eq, ← begunOutfall_eq]
    · rw [hg, e] at h
      cases h
    · rw [hg, e]
      dsimp only
      rw [GaugeGroup.beginScan_of_none hn]
    · rw [hg, e]
      dsimp only
      rw [State.begunOutfall, if_pos ho, GaugeGroup.beginScan_of_none hn]
  | false =>
    obtain ⟨w, e⟩ := resumed_of_periodic hw
    refine ⟨resumes_units e hframe, ?_, fun _ => ?_, fun h => ?_⟩
    · rw [hg, e]
    · rw [hg, e]
      exact ⟨rfl, rfl⟩
    · rw [hg, e] at h
      cases h

end Sys2Proof.Machine
end

section
/-! The end of a scan by its last probe (R99, R103, R123 to R125, R127 to R135). -/

namespace Sys2Proof.Machine

open Sys2Proof

set_option Elab.async false

/-- The last probe of a scan of the group. -/
def State.lastProbe (s : State) (g : ProbeGroup) (p : Fin 6) : Prop :=
  g = .polder ∧ p = 2 ∧ s.straps.pumps.val ∈ ([0, 1, 4, 5] : List Nat) ∨
    g = .polder ∧ p = 3 ∧ s.straps.pumps.val ∈ ([2, 3, 6, 7] : List Nat) ∨ g = .outfall ∧ p = 5

theorem State.sumpBScanned_eq_false {s : State} (h : s.straps.pumps.val ∈ ([0, 1, 4, 5] : List Nat)) : s.sumpBScanned = false := by
  rw [Bool.eq_false_iff, ne_eq, State.sumpBScanned_iff]
  revert h
  generalize s.straps.pumps = p
  revert p
  decide

theorem State.nextProbe_of_last {s : State} {g : ProbeGroup} {p : Fin 6} (h : s.lastProbe g p) : s.nextProbe p = none := by
  obtain ⟨_, rfl, hb⟩ | ⟨_, rfl, _⟩ | ⟨_, rfl⟩ := h
  · exact if_neg (by rw [State.sumpBScanned_eq_false hb]; decide)
  · rfl
  · rfl

/-- Sump B is judged where P3 is the last probe of the scan (R132). -/
theorem State.sumpBScanned_of_last {s : State} {p : Fin 6} (h : s.lastProbe .polder p) :
    s.sumpBScanned = decide (p = 3) := by
  obtain ⟨_, rfl, hb⟩ | ⟨_, rfl, hb⟩ | ⟨hg, _⟩ := h
  · exact State.sumpBScanned_eq_false hb
  · exact s.sumpBScanned_iff.mpr hb
  · cases hg

/-- The record of the probe that ends its part of a scan with an accepted code, or with none (R123 to R125). -/
def Probe.closed (hop : BitVec 3) (probe reference : Nat) (result : Option Nat) (r : Probe) : Probe :=
  { lastCode := if result.isSome = true then result else r.lastCode
    counts := if windowVoid probe reference = true then r.counts else some (probe, reference)
    hop := hop
    overflow := result.isNone && (r.overflow || windowVoid probe reference)
    unsteady := result.isNone }

/-- The state with the last window of a probe recorded. -/
def windowed (g : ProbeGroup) (c : Scan) (probe reference : Nat) (result : Option Nat) (s : State) : State :=
  setGroup g { s.gauge.group g with hop := (s.gauge.group g).hop + 1 }
    (setProbe c.probe ((s.gauge.probes[c.probe]).closed (s.gauge.group g).hop probe reference result) s)

/-- A window ends its probe's part of the scan with an accepted code, or with none (R125). -/
def closes (c : Scan) (probe reference : Nat) (result : Option Nat) : Prop :=
  (∃ f, c.first = some f ∧ windowVoid probe reference = false ∧ min 255 ((probe - reference) / 16) ≤ f + 4 ∧
      f ≤ min 255 ((probe - reference) / 16) + 4 ∧ result = some (min 255 ((probe - reference) / 16))) ∨
    (2 ≤ c.tried ∧ (windowVoid probe reference = true ∨ ∃ f, c.first = some f ∧
      (f + 4 < min 255 ((probe - reference) / 16) ∨ min 255 ((probe - reference) / 16) + 4 < f)) ∧ result = none)

theorem endCountingWindow_closes {g : ProbeGroup} {c : Scan} {s : State} {p r : Nat} {result : Option Nat}
    (hc : (s.gauge.group g).scan = some c) (h : closes c p r result) :
    endCountingWindow g p r s = doneProbe g c.probe (windowed g c p r result s) := by
  obtain ⟨f, hf, hv, h₁, h₂, rfl⟩ | ⟨ht, hdrop, rfl⟩ := h
  · rw [endCountingWindow_accepts hc hv (judgePair_of_accepted hf hv h₁ h₂), windowed, Probe.closed, hv]
    rfl
  · rw [endCountingWindow_drops_third hc ht (judgePair_of_dropped hdrop)]
    rfl

/-- The state in which the reading is made: the scan is over. -/
def readable (g : ProbeGroup) (c : Scan) (probe reference : Nat) (result : Option Nat) (s : State) : State :=
  setGroup g { s.gauge.group g with hop := (s.gauge.group g).hop + 1, scan := none }
    (setProbe c.probe ((s.gauge.probes[c.probe]).closed (s.gauge.group g).hop probe reference result) s)

theorem setGroup_windowed (g : ProbeGroup) (c : Scan) (p r : Nat) (result : Option Nat) (s : State) :
    setGroup g { (windowed g c p r result s).gauge.group g with scan := none } (windowed g c p r result s) =
      readable g c p r result s :=
  setGroup_setGroup_scan g c.probe _ none s

theorem exec_countingWindowEnd_last {g : ProbeGroup} {c : Scan} {s : State} {p r : Nat} {result : Option Nat}
    (hrun : s.cond = .running) (hc : (s.gauge.group g).scan = some c) (hlast : s.lastProbe g c.probe)
    (h : closes c p r result) :
    exec (.countingWindowEnd g p r) s = .next (follow (resumed (groupReading g (readable g c p r result s)))) := by
  have he : exec (.countingWindowEnd g p r) s = .next (follow (endCountingWindow g p r s)) := exec_event rfl hrun
  have hnext : (windowed g c p r result s).nextProbe c.probe = none := by
    rw [windowed, nextProbe_windowed]
    exact State.nextProbe_of_last hlast
  rw [he, endCountingWindow_closes hc h, doneProbe_of_last hnext, endScan_eq, setGroup_windowed]

/-! ### What the reading sees -/

theorem readable_units (g : ProbeGroup) (c : Scan) (p r : Nat) (result : Option Nat) (s : State) :
    readable g c p r result s = { s with gauge := (readable g c p r result s).gauge } := by
  cases g <;> rfl

theorem readable_gauge (g : ProbeGroup) (c : Scan) (p r : Nat) (result : Option Nat) (s : State) :
    (readable g c p r result s).gauge.probes =
        s.gauge.probes.set c.probe ((s.gauge.probes[c.probe]).closed (s.gauge.group g).hop p r result) ∧
      (readable g c p r result s).gauge.group g =
        { s.gauge.group g with hop := (s.gauge.group g).hop + 1, scan := none } ∧
      (g = .polder → (readable g c p r result s).gauge.outfall = s.gauge.outfall) ∧
      (g = .outfall → (readable g c p r result s).gauge.polder = s.gauge.polder) ∧
      (readable g c p r result s).gauge.flood = s.gauge.flood ∧
      (readable g c p r result s).gauge.floodCount = s.gauge.floodCount ∧
      (readable g c p r result s).gauge.sumpA = s.gauge.sumpA ∧ (readable g c p r result s).gauge.sumpB = s.gauge.sumpB := by
  cases g
  · exact ⟨rfl, rfl, fun _ => rfl, nofun, rfl, rfl, rfl, rfl⟩
  · exact ⟨rfl, rfl, nofun, fun _ => rfl, rfl, rfl, rfl, rfl⟩

theorem readable_probe_self (g : ProbeGroup) (c : Scan) (p r : Nat) (result : Option Nat) (s : State) :
    (readable g c p r result s).gauge.probes[c.probe] =
      (s.gauge.probes[c.probe]).closed (s.gauge.group g).hop p r result := by
  obtain ⟨h, _⟩ := readable_gauge g c p r result s
  rw [h]
  exact Vector.getElem_set_self _

theorem readable_probe_of_ne {q : Fin 6} {c : Scan} (hq : q ≠ c.probe) (g : ProbeGroup) (p r : Nat) (result : Option Nat)
    (s : State) : (readable g c p r result s).gauge.probes[q] = s.gauge.probes[q] := by
  obtain ⟨h, _⟩ := readable_gauge g c p r result s
  rw [h]
  exact Vector.getElem_set_ne _ _ (fun e => hq (Fin.ext e.symm))

end Sys2Proof.Machine
end

section
/-! The obligation on the end of a scan (R99, R103, R123 to R125, R127 to R135). -/

namespace Sys2Proof.Machine

open Sys2Proof

set_option Elab.async false

/-- A sump becomes LOW at a reading: in the words of the statements and in those of the model (R103). -/
theorem becomesLow_iff {s y r t : State} (k : PumpIx) (hA : y.gauge.sumpA = s.gauge.sumpA) (hB : y.gauge.sumpB = s.gauge.sumpB)
    (hA' : t.gauge.sumpA = r.gauge.sumpA) (hB' : t.gauge.sumpB = r.gauge.sumpB) :
    ((k.val < 2 ∧ s.gauge.sumpA.low = false ∧ t.gauge.sumpA.low = true) ∨
        (2 ≤ k.val ∧ s.gauge.sumpB.low = false ∧ t.gauge.sumpB.low = true)) ↔
      r.sumpLow k = true ∧ y.sumpLow k = false := by
  unfold State.sumpLow
  rw [hA, hB, hA', hB']
  by_cases h : k.val < 2
  · rw [if_pos h, if_pos h]
    constructor
    · rintro (⟨_, h₁, h₂⟩ | ⟨h₁, _⟩)
      · exact ⟨h₂, h₁⟩
      · omega
    · rintro ⟨h₁, h₂⟩
      exact .inl ⟨h, h₂, h₁⟩
  · rw [if_neg h, if_neg h]
    constructor
    · rintro (⟨h₁, _⟩ | ⟨_, h₁, h₂⟩)
      · exact absurd h₁ h
      · exact ⟨h₂, h₁⟩
    · rintro ⟨h₁, h₂⟩
      exact .inr ⟨by omega, h₂, h₁⟩

theorem units_after_reading {s y r t : State} (hy : y = { s with gauge := y.gauge })
    (hr : r = { y with pumps := r.pumps, players := r.players, drives := r.drives, port := r.port, gauge := r.gauge })
    (ht : t = { r with arb := t.arb, gauge := t.gauge }) :
    t = { s with pumps := t.pumps, players := t.players, drives := t.drives, port := t.port, arb := t.arb, gauge := t.gauge } := by
  rw [hy] at hr
  rw [hr] at ht
  rw [ht]

/-- Settles O41: the reading is made on the records as the last window leaves them, and the mode and the next scan follow it. -/
theorem polderReadingStopsPumpsOfALowSump : Obligations.PolderReadingStopsPumpsOfALowSump := by
  intro g p q s c result hrun hc hlast code void hcloses
  have he := exec_countingWindowEnd_last hrun hc hlast hcloses
  have hread := groupReading_read g (readable g c p q result s)
  have hafter := follow_resumed (groupReading g (readable g c p q result s))
  obtain ⟨hprobes, hgroup, hyo, hyp, hflood, hcount, hsumpA, hsumpB⟩ := readable_gauge g c p q result s
  have hself := readable_probe_self g c p q result s
  have hother {i : Fin 6} (hi : i ≠ c.probe) := readable_probe_of_ne hi g p q result s
  have hunits := readable_units g c p q result s
  generalize readable g c p q result s = y at *
  generalize groupReading g y = r at *
  generalize follow (resumed r) = t at *
  refine ⟨t, he, ?_⟩
  intro codeOf unsteady first formed was now judged becomesLow last
  have hcode : codeOf = fun i : Fin 6 => (y.gauge.probes[i]).lastCode := by
    funext i
    by_cases hi : i = c.probe
    · subst hi
      simp only [codeOf, hself, Probe.closed, true_and]
    · simp only [codeOf, hother hi, hi, false_and, if_false]
  have hunsteady : unsteady = fun i : Fin 6 => (y.gauge.probes[i]).unsteady := by
    funext i
    by_cases hi : i = c.probe
    · subst hi
      simp only [unsteady, hself, Probe.closed, if_true]
    · simp only [unsteady, hother hi, hi, if_false]
  have hformed : formed = y.levelFormed g := by
    simp only [formed, hcode, hunsteady, first]
    cases g <;> rfl
  have hjudged (u : Sump) (i : Fin 6) : judged u i = u.judge y.gauge.probes[i] := by
    simp only [judged, hcode, hunsteady, Sump.judge_eq] <;> rfl
  have hlow (k : PumpIx) : becomesLow k ↔ r.sumpLow k = true ∧ y.sumpLow k = false :=
    becomesLow_iff k hsumpA hsumpB (by rw [hafter.gauge]) (by rw [hafter.gauge])
  have hlevel : now = { (y.gauge.group g).reads y.straps.probe.val (y.levelFormed g) with scan := now.scan } := by
    rw [← hread.group]
    exact hafter.group g
  have hpump (k : PumpIx) : t.pump k = r.pump k ∧ t.player k = r.player k := by
    rw [hafter.units]
    exact ⟨rfl, rfl⟩
  have hpump₀ (k : PumpIx) : y.pump k = s.pump k ∧ y.player k = s.player k := by
    rw [hunits]
    exact ⟨rfl, rfl⟩
  have hport : t.port = r.port := by rw [hafter.units]
  have hport₀ : y.port = s.port := by rw [hunits]
  have htprobes : t.gauge.probes = y.gauge.probes := by
    rw [hafter.gauge]
    exact hread.probes
  have hstraps : y.straps = s.straps := by rw [hunits]
  have hsA : t.gauge.sumpA = r.gauge.sumpA := by rw [hafter.gauge]
  have hsB : t.gauge.sumpB = r.gauge.sumpB := by rw [hafter.gauge]
  have hfl : t.gauge.flood = r.gauge.flood := by rw [hafter.gauge]
  have hfc : t.gauge.floodCount = r.gauge.floodCount := by rw [hafter.gauge]
  have hstand (h : y.levelFormed g = none ∨ g = .outfall) :
      t.gauge.flood = s.gauge.flood ∧ t.gauge.floodCount = s.gauge.floodCount ∧ t.port = s.port := by
    rw [hfl, hfc, hport, ← hflood, ← hcount, ← hport₀]
    cases g with
    | polder =>
      obtain ⟨hfr, _⟩ := hread.polder rfl
      exact hfr.none (h.resolve_right (by decide))
    | outfall =>
      obtain ⟨h₁, h₂, h₃, _⟩ := hread.outfall rfl
      exact ⟨h₁, h₂, h₃⟩
  rw [hgroup] at hlevel
  have hhop : now.hop = was.hop + 1 := (congrArg GaugeGroup.hop hlevel).trans (GaugeGroup.reads_hop _ _ _)
  clear_value codeOf unsteady formed judged becomesLow
  subst hcode hunsteady hformed
  refine ⟨fun i hi => ?_, ?_, ?_, fun hn => ?_, fun level disagree hf => ?_, ?_, ?_, fun hg => ?_, fun hg => ?_, fun k hk ha => ?_,
    fun k hk => ?_, fun hs => ?_, fun hs => ?_, ?_⟩
  · rw [htprobes, hother hi]
  · show t.gauge.probes[c.probe] = { lastCode := (y.gauge.probes[c.probe]).lastCode
                                     counts := if void = true then last.counts else some (p, q), hop := was.hop
                                     overflow := result.isNone && (last.overflow || void)
                                     unsteady := (y.gauge.probes[c.probe]).unsteady }
    rw [htprobes, hself]
    rfl
  · exact hhop
  · obtain ⟨h₁, h₂, h₃⟩ := hstand (.inl hn)
    rw [hn] at hlevel
    refine ⟨?_, h₁, h₂, h₃⟩
    rw [hhop]
    exact hlevel
  · intro rising falling held count
    rw [hf] at hlevel
    refine ⟨congrArg GaugeGroup.level hlevel, congrArg GaugeGroup.disagree hlevel, ?_, ?_, ?_, fun hg => ?_⟩
    · refine (congrArg GaugeGroup.heldClass hlevel).trans ?_
      rw [hstraps]
      rfl
    · refine (congrArg GaugeGroup.lastRising hlevel).trans ?_
      rw [hstraps]
      rfl
    · refine (congrArg GaugeGroup.lastFalling hlevel).trans ?_
      rw [hstraps]
      rfl
    · subst hg
      obtain ⟨hfr, _⟩ := hread.polder rfl
      obtain ⟨h₁, h₂, h₃⟩ := hfr.some level disagree hf
      have hheld : y.heldNext level = held := by
        rw [State.heldNext, show y.gauge.polder = _ from hgroup, hstraps]
      rw [hheld, hcount] at h₁ h₂
      rw [hflood] at h₂ h₃
      rw [hport₀] at h₃
      rw [hport, hfl, hfc]
      exact ⟨h₁, h₂, h₃⟩
  · rw [hsA]
    cases g with
    | polder =>
      obtain ⟨_, _, hA, _⟩ := hread.polder rfl
      rw [hA, if_pos rfl, hjudged, hsumpA]
      rfl
    | outfall =>
      obtain ⟨_, _, _, _, hA, _⟩ := hread.outfall rfl
      rw [hA, if_neg (by decide), hsumpA]
  · rw [hsB]
    cases g with
    | polder =>
      obtain ⟨_, _, _, hB⟩ := hread.polder rfl
      have hscanned : y.sumpBScanned = decide (c.probe = 3) := by
        rw [State.sumpBScanned, hstraps]
        exact State.sumpBScanned_of_last hlast
      rw [hB, hscanned, hjudged, hsumpB]
      simp only [decide_eq_true_eq]
      rfl
    | outfall =>
      obtain ⟨_, _, _, _, _, hB⟩ := hread.outfall rfl
      have hp : c.probe = 5 := by
        obtain ⟨hg, _⟩ | ⟨hg, _⟩ | ⟨_, hp⟩ := hlast
        · cases hg
        · cases hg
        · exact hp
      rw [hB, hsumpB, hp, if_neg (by decide)]
  · obtain ⟨h₁, h₂, h₃⟩ := hstand (.inr hg)
    obtain ⟨_, _, _, hpolder, _⟩ := hread.outfall hg
    refine ⟨h₁, h₂, h₃, ?_⟩
    rw [← hyp hg, ← hpolder]
    exact hafter.group .polder
  · obtain ⟨_, houtfall, _⟩ := hread.polder hg
    rw [← hyo hg, ← houtfall]
    exact hafter.group .outfall
  · have ha' : (y.pump k).state.active = true := by
      rw [(hpump₀ k).1]
      exact (State.pumpActive_iff s k).mp ha
    obtain ⟨hrest, hidle, hduty⟩ := hread.stops k ⟨(hlow k).mp hk, ha'⟩
    rw [(hpump₀ k).1] at hrest
    have hdrives : t.drives = r.drives := by rw [hafter.units]
    rw [(hpump k).1, (hpump k).2, hrest, hdrives]
    exact ⟨rfl, rfl, hidle, hduty, Pump.keepsWork_toResting _⟩
  · have hk' : ¬ ((r.sumpLow k = true ∧ y.sumpLow k = false) ∧ (y.pump k).state.active = true) := by
      rw [← hlow k, (hpump₀ k).1, ← State.pumpActive_iff]
      exact hk
    obtain ⟨h₁, h₂⟩ := hread.others k hk'
    rw [(hpump k).1, (hpump k).2, h₁, h₂]
    exact hpump₀ k
  · have hscan : (r.gauge.group g).scan = none := by rw [hread.group, GaugeGroup.reads_scan, hgroup]
    obtain ⟨hnext, hnext'⟩ := hafter.continuous hs
    cases g with
    | polder => exact .inl (hnext hscan)
    | outfall =>
      by_cases hrole : r.outfallScanned = true
      · exact .inl (hnext' hscan hrole)
      · refine .inr ⟨rfl, ?_⟩
        rwa [State.outfallScanned_iff, show r.straps = s.straps by rw [hread.units]; exact hstraps] at hrole
  · have hscan : (r.gauge.group g).scan = none := by rw [hread.group, GaugeGroup.reads_scan, hgroup]
    obtain ⟨h₁, h₂⟩ := hafter.periodic hs
    cases g with
    | polder => exact h₁.trans hscan
    | outfall => exact h₂.trans hscan
  · exact units_after_reading hunits hread.units hafter.units

end Sys2Proof.Machine
end

section
/-! The resets and the strap reading (chapter 9). -/

namespace Sys2Proof.Machine

open Sys2Proof

set_option Elab.async false

/-! ### The state after a cold reset -/

/-- The profile memory past the default plays (R106). -/
theorem defaultProfile_rest (i : Fin 64) (h : (6 ≤ i.val ∧ i.val < 16) ∨ (20 ≤ i.val ∧ i.val < 32) ∨ 36 ≤ i.val) :
    defaultProfile[i] = ⟨0, 1, false⟩ := by
  revert i
  decide +kernel

theorem keptPumps_getElem (v : Vector Pump 4) (k : PumpIx) : (keptPumps v)[k] = Pump.reset (v[k]).runMinutes := by
  fin_cases k <;> rfl

/-- A warm reset leaves what a cold one does but for what it keeps (R161). -/
theorem takeWarmReset_pump (s : State) (k : PumpIx) :
    (takeWarmReset s).pump k = { (takeColdReset s).pump k with runMinutes := (s.pump k).runMinutes } := by
  rw [show (takeWarmReset s).pump k = (keptPumps s.pumps)[k] from rfl, keptPumps_getElem]
  fin_cases k <;> rfl

theorem exec_warmReset_of_short {low : Nat} (h : low < 100) (s : State) : exec (.warmReset low) s = .next s := by
  simp only [exec, execWarmReset, if_pos h]

theorem exec_warmReset_of_cold {s : State} (h : s.cond = .reset .cold) (low : Nat) : exec (.warmReset low) s = .next s := by
  simp only [exec, execWarmReset, h, ite_self]

theorem exec_warmReset_of_taken {low : Nat} {s : State} (h : 100 ≤ low) (hc : s.cond ≠ .reset .cold) :
    exec (.warmReset low) s = .next (takeWarmReset s) := by
  simp only [exec, execWarmReset, if_neg (Nat.not_lt.mpr h)]
  split
  · exact absurd ‹_› hc
  all_goals rfl

/-- Settles O4: the values after each reset. -/
theorem resetsLoadDefaultsOrKeepProfiles : Obligations.ResetsLoadDefaultsOrKeepProfiles := by
  refine ⟨fun s => ⟨takeColdReset s, rfl, rfl, ?_, ?_, ?_, ?_, ?_, ?_, ?_, ?_, rfl, rfl, rfl, rfl, rfl, rfl, rfl, rfl, ?_, ?_, rfl,
    rfl, rfl, rfl, rfl, rfl, ?_, rfl, rfl, rfl, rfl, rfl, ?_, rfl, rfl, rfl, ?_, rfl, rfl, rfl, rfl, rfl, rfl, rfl, rfl⟩,
    fun low s => ⟨fun h => exec_warmReset_of_short h s, fun h => exec_warmReset_of_cold h low, fun h hc => ?_⟩⟩
  · show (List.range 6).map (fun i => defaultProfile[i]?) = _
    decide +kernel
  · show (List.range 4).map (fun i => defaultProfile[16 + i]?) = _
    decide +kernel
  · show (List.range 4).map (fun i => defaultProfile[32 + i]?) = _
    decide +kernel
  · exact defaultProfile_rest
  · intro k
    fin_cases k <;> rfl
  · intro k
    fin_cases k <;> rfl
  · intro k
    fin_cases k <;> rfl
  · intro k
    fin_cases k <;> rfl
  · intro p
    fin_cases p <;> rfl
  · intro g
    cases g <;> rfl
  · intro c
    cases c <;> rfl
  · intro k
    fin_cases k <;> rfl
  · intro k
    exact ⟨rfl, rfl⟩
  · exact ⟨takeWarmReset s, takeColdReset s, exec_warmReset_of_taken h hc, rfl, rfl, takeWarmReset_pump s⟩

end Sys2Proof.Machine
end

section
/-! The strap reading (R81, R121, R122, R157 to R159, R163). -/

namespace Sys2Proof.Machine

open Sys2Proof

set_option Elab.async false

theorem inFault_iff (l : StrapLevels) : l.inFault = true ↔ 2 ≤ l.stnHi.val ∨ 5 ≤ l.role.val := by
  simp [StrapLevels.inFault, StrapLevels.stnHiFault, StrapLevels.roleFault]

theorem exec_resetEnd {κ : ResetKind} {s : State} (h : s.cond = .reset κ) :
    exec .resetEnd s = .next { s with cond := .strapReading, strapTime := 8000 } := by
  simp only [exec, execResetEnd, h]

theorem exec_strapReadingComplete {s : State} (h : s.cond = .strapReading) (l : StrapLevels) :
    exec (.strapReadingComplete l) s = .next
      (if l.inFault then { s with straps := l, strapPins := l, cond := .strapFault, strapTime := 0 }
       else beginBlocks { s with straps := l, strapPins := l }) := by
  simp only [exec, execStrapReadingComplete, h]

/-- The state of a pump when the straps have been read (R81). -/
theorem fittedState_eq (l : StrapLevels) (k : PumpIx) :
    fittedState l k = if k.val < l.pumps.val % 4 + 1 then .idle else .absent := by
  have h : l.fitted = l.pumps.val % 4 + 1 := by
    unfold StrapLevels.fitted
    split <;> omega
  rw [fittedState, h]

theorem fitPumps_getElem (l : StrapLevels) (v : Vector Pump 4) (k : PumpIx) : (fitPumps l v)[k] = fitPump l k v[k] := by
  fin_cases k <;> rfl

theorem own_of_straps {l : StrapLevels} (h : l.stnHi.val < 2) : l.station.val = 8 * l.stnHi.val + l.stnLo.val := by
  have := l.stnLo.isLt
  exact Nat.mod_eq_of_lt (by omega)

/-- What the begin of the blocks writes (R163). -/
theorem beginBlocks_units (s : State) :
    beginBlocks s = { s with
      cond := .running, strapTime := 0, pumps := fitPumps s.straps s.pumps
      gauge := { s.gauge with polder := s.gauge.polder.beginScan 0, outfall := s.begunOutfall } } := rfl

theorem State.begunOutfall_of_plain {s : State} (h : s.straps.role.val = 0) : s.begunOutfall = s.gauge.outfall := by
  rw [State.begunOutfall, if_neg]
  rw [State.outfallScanned_iff]
  omega

/-- Settles O5: the reading of 8.0 ms, and its end by the levels that it brings. -/
theorem strapReadingEndsInStrapFaultOrBeginsEveryBlock : Obligations.StrapReadingEndsInStrapFaultOrBeginsEveryBlock := by
  refine ⟨⟨fun κ s h => exec_resetEnd h, fun l s h hl => ?_⟩, fun l s h hhi hrole => ?_⟩
  · have he := exec_strapReadingComplete h l
    rw [if_pos ((inFault_iff l).mpr hl)] at he
    exact ⟨_, he, rfl, rfl, rfl, fun _ => ⟨rfl, rfl⟩⟩
  · have he := exec_strapReadingComplete h l
    rw [if_neg (by rw [inFault_iff]; omega), beginBlocks_units] at he
    refine ⟨_, he, rfl, rfl, own_of_straps hhi, rfl, rfl, fun k => ?_, fun hs => ?_, fun hs hr => ?_, fun hr => ?_, rfl, rfl, ?_⟩
    · rw [← fittedState_eq]
      exact fitPumps_getElem l s.pumps k
    · exact GaugeGroup.beginScan_of_none hs 0
    · show ({ s with straps := l, strapPins := l } : State).begunOutfall = _
      rw [State.begunOutfall, if_pos]
      · exact GaugeGroup.beginScan_of_none hs 4
      · exact (State.outfallScanned_iff _).mpr ⟨hr, Nat.le_of_lt_succ hrole⟩
    · exact State.begunOutfall_of_plain (s := { s with straps := l, strapPins := l }) hr
    · rw [State.entry_own rfl]
      exact ⟨rfl, rfl⟩

end Sys2Proof.Machine
end

section
/-! The events due in a running part, one by one (R23, R24, R40, R64, R80, R86, R111, R142, R154, R155). -/

namespace Sys2Proof.Machine

open Sys2Proof

set_option Elab.async false

section
variable {s : State} (h : s.cond = .running)
include h

/-! ### The schedule and the window -/

theorem roundEnd_due (inp : Inputs) : .roundEnd inp ∈ due s ↔ inp = s.inputs ∧ 500000 ≤ s.timer.phase := by
  simp [mem_due_of_running h, mem_dueSchedule, mem_dueWindow, mem_dueLine, mem_duePump, and_comm]

theorem settlePoint_due : .settlePoint ∈ due s ↔ s.timer.phase = 448000 ∧ s.timer.settleTaken = false := by
  simp [mem_due_of_running h, mem_dueSchedule, mem_dueWindow, mem_dueLine, mem_duePump]

theorem windowOpening_due :
    .windowOpening ∈ due s ↔ s.timer.phase = 448000 ∧ s.timer.settleTaken = true ∧ s.timer.windowTaken = false := by
  simp [mem_due_of_running h, mem_dueSchedule, mem_dueWindow, mem_dueLine, mem_duePump]

theorem ownSlotStart_due (inp : Inputs) :
    .ownSlotStart inp ∈ due s ↔
      s.announces = true ∧ s.timer.announceTaken = false ∧ s.slotStart ≤ s.timer.phase ∧ s.timer.phase ≤ s.slotStart + 1000 ∧
        inp = s.inputs := by
  simp [mem_due_of_running h, mem_dueSchedule, mem_dueWindow, mem_dueLine, mem_duePump]

theorem announcementTransmitBegin_due :
    .announcementTransmitBegin ∈ due s ↔ s.line.handed.isSome = true ∧ s.timer.phase = s.slotStart + 1000 := by
  simp [mem_due_of_running h, mem_dueSchedule, mem_dueWindow, mem_dueLine, mem_duePump]

theorem lastBitEnd_due :
    .lastBitEnd ∈ due s ↔ ∃ w, s.arb.window = some w ∧ 7000 ≤ w.elapsed ∧ s.line.windowHold = true := by
  simp [mem_due_of_running h, mem_dueSchedule, mem_dueWindow, mem_dueLine, mem_duePump]

theorem confirmationBegin_due (inp : Inputs) :
    .confirmationBegin inp ∈ due s ↔ ∃ w, s.arb.window = some w ∧ 10000 ≤ w.elapsed ∧ w.holding = true ∧ s.line.tx = none ∧
      s.arb.confirmClean = false ∧ inp = s.inputs := by
  simp [mem_due_of_running h, mem_dueSchedule, mem_dueWindow, mem_dueLine, mem_duePump]

theorem startTakenOrDropped_due (inp : Inputs) :
    .startTakenOrDropped inp ∈ due s ↔ inp = s.inputs ∧ s.arb.confirmClean = true := by
  simp [mem_due_of_running h, mem_dueSchedule, mem_dueWindow, mem_dueLine, mem_duePump, and_comm]

theorem windowEnd_due : .windowEnd ∈ due s ↔ ∃ w, s.arb.window = some w ∧ 32000 ≤ w.elapsed := by
  simp [mem_due_of_running h, mem_dueSchedule, mem_dueWindow, mem_dueLine, mem_duePump]

theorem transmissionEnd_due :
    .transmissionEnd ∈ due s ↔
      ∃ x, s.line.tx = some x ∧ x.returned = x.chars.length ∧ 352 * x.chars.length ≤ x.elapsed := by
  simp [mem_due_of_running h, mem_dueSchedule, mem_dueWindow, mem_dueLine, mem_duePump]

/-! ### The line -/

theorem frameArrival_due (c : Cable) (inp : Inputs) :
    .frameArrival c inp ∈ due s ↔ inp = s.inputs ∧ (s.line.cable c).arrivalDue = true := by
  cases c <;> simp [mem_due_of_running h, mem_dueSchedule, mem_dueWindow, mem_dueLine, mem_duePump, Line.cable, and_comm]

theorem frameTruncated_due (c : Cable) : .frameTruncated c ∈ due s ↔ (s.line.cable c).overdue = true := by
  cases c <;> simp [mem_due_of_running h, mem_dueSchedule, mem_dueWindow, mem_dueLine, mem_duePump, Line.cable]

theorem checkComparisonTimeout_due :
    .checkComparisonTimeout ∈ due s ↔ ∃ o rest, s.line.check.opened = o :: rest ∧ 1000 ≤ o.age := by
  simp [mem_due_of_running h, mem_dueSchedule, mem_dueWindow, mem_dueLine, mem_duePump]

theorem checkPulseEnd_due : .checkPulseEnd ∈ due s ↔ s.line.check.pulse = some 0 := by
  simp [mem_due_of_running h, mem_dueSchedule, mem_dueWindow, mem_dueLine, mem_duePump]

/-! ### The pumps -/

theorem primeSenseAsserted_due (k : PumpIx) :
    .primeSenseAsserted k ∈ due s ↔ (s.pump k).state = .priming ∧ s.inputs.primeSense.getLsbD k = true := by
  simp [mem_due_of_running h, mem_dueSchedule, mem_dueWindow, mem_dueLine, mem_duePump]

theorem primeTimerExpiry_due (k : PumpIx) : .primeTimerExpiry k ∈ due s ↔ (s.pump k).primeTimer = some 0 := by
  simp [mem_due_of_running h, mem_dueSchedule, mem_dueWindow, mem_dueLine, mem_duePump]

theorem feedbackDueExpiry_due (k : PumpIx) (b : Bool) :
    .feedbackDueExpiry k b ∈ due s ↔ b = s.inputs.runFb.getLsbD k ∧ (s.pump k).feedbackTimer = some 0 := by
  simp [mem_due_of_running h, mem_dueSchedule, mem_dueWindow, mem_dueLine, mem_duePump, and_comm]

theorem minimumRunExpiry_due (k : PumpIx) : .minimumRunExpiry k ∈ due s ↔ (s.pump k).minRunTimer = some 0 := by
  simp [mem_due_of_running h, mem_dueSchedule, mem_dueWindow, mem_dueLine, mem_duePump]

theorem restTimerExpiry_due (k : PumpIx) : .restTimerExpiry k ∈ due s ↔ (s.pump k).restTimer = some 0 := by
  simp [mem_due_of_running h, mem_dueSchedule, mem_dueWindow, mem_dueLine, mem_duePump]

theorem runSecond_due (k : PumpIx) : .runSecond k ∈ due s ↔ (s.pump k).secondTimer = some 0 := by
  simp [mem_due_of_running h, mem_dueSchedule, mem_dueWindow, mem_dueLine, mem_duePump]

theorem stepCompletion_due (k : PumpIx) :
    .stepCompletion k ∈ due s ↔
      (s.player k).playing = true ∧ (s.player k).step.isSome = true ∧ (s.player k).timeLeft = some 0 := by
  simp [mem_due_of_running h, mem_dueSchedule, mem_dueWindow, mem_dueLine, mem_duePump]

end

end Sys2Proof.Machine
end

section
/-! What the part does of itself on an empty queue (R80, R111, R158, R159, R162). -/

namespace Sys2Proof.Machine

open Sys2Proof

set_option Elab.async false

/-! ### The step on an empty queue -/

theorem step_of_empty {s : State} (h : s.pending = []) : step s = .next (idle s) := by
  simp only [step, h]

theorem idle_of_nothing_due {s : State} (h : due s = []) : idle s = advance s := by
  simp [idle, pickDue, h]

/-- One of the events due is raised (log 3). -/
theorem idle_of_due {s : State} (h : due s ≠ []) : ∃ c ∈ due s, idle s = { s with pending := [c], free := s.free + 1 } := by
  have hlt : Config.tieBreak s.free % (due s).length < (due s).length := Nat.mod_lt _ (List.length_pos_iff.mpr h)
  refine ⟨(due s)[Config.tieBreak s.free % (due s).length], List.getElem_mem hlt, ?_⟩
  rw [idle, pickDue, List.getElem?_eq_getElem hlt]

/-! ### One microsecond -/

theorem advance_of_running {s : State} (h : s.cond = .running) :
    advance s = { s with
      free := s.free + 1, timer := s.timer.pass, arb := s.arb.pass s.line.active, line := s.line.pass
      pumps := tickPumps s.pumps, players := tickPlayers s.players, drives := runDrives (Config.outputCounts s.free) s
      gauge := { s.gauge with polder := s.gauge.polder.pass, outfall := s.gauge.outfall.pass } } := by
  simp only [advance, h]

theorem advance_of_strapReading {s : State} (h : s.cond = .strapReading) :
    advance s = { s with strapTime := s.strapTime - 1, free := s.free + 1 } := by
  simp only [advance, h]

theorem advance_of_still {s : State} (h : s.cond = .strapFault ∨ ∃ κ, s.cond = .reset κ) :
    advance s = { s with free := s.free + 1 } := by
  obtain h | ⟨κ, h⟩ := h <;> simp only [advance, h]

/-- What has aged past a bound is dropped, in the words of the statements: before the ageing instead of after it. -/
theorem filter_age_map {α : Type} (age : α → Nat) (older : α → α) (bound : Nat) (h : ∀ r, age (older r) = age r + 1)
    (l : List α) :
    (l.map older).filter (fun r => decide (age r ≤ bound)) = (l.filter (fun r => decide (age r < bound))).map older := by
  rw [List.filter_map]
  refine congrArg _ (List.filter_congr fun r _ => ?_)
  simp only [Function.comp_apply, h]
  exact decide_eq_decide.mpr Nat.succ_le_iff

theorem RoundTimer.pass_eq (t : RoundTimer) :
    t.pass = { t with
      phase := t.phase + 1, held := t.held.map (fun h => { h with edgeAge := h.edgeAge + 1 })
      replaced := (t.replaced.filter (fun r => decide (r.age < 336))).map (fun r => { r with age := r.age + 1 }) } := by
  have h := filter_age_map Replaced.age (fun r => { r with age := r.age + 1 }) 336 (fun _ => rfl) t.replaced
  rw [RoundTimer.pass, h]

theorem CableCheck.pass_eq (k : CableCheck) :
    k.pass = { k with
      opened := k.opened.map (fun o => { o with age := o.age + 1 })
      arrivals := (k.arrivals.filter (fun r => decide (r.age < 1000))).map (fun r => { r with age := r.age + 1 })
      pulse := k.pulse.map (· - 1) } := by
  have h := filter_age_map StandbyArrival.age (fun r => { r with age := r.age + 1 }) 1000 (fun _ => rfl) k.arrivals
  rw [CableCheck.pass, h]
  rfl

theorem Window.pass_eq (active : Cable) (w : Window) :
    w.pass active = { w with
      elapsed := w.elapsed + 1
      cables := if (w.elapsed + 1) % 1000 = 0 ∧ w.elapsed + 1 < 7000 then w.cables ++ [active] else w.cables } := rfl

theorem Line.pass_cable (l : Line) (c : Cable) : l.pass.cable c = (l.cable c).pass := by
  cases c <;> rfl

theorem tickPumps_getElem (v : Vector Pump 4) (k : PumpIx) : (tickPumps v)[k] = (v[k]).pass := by
  fin_cases k <;> rfl

theorem tickPlayers_getElem (v : Vector Player 4) (k : PumpIx) : (tickPlayers v)[k] = (v[k]).pass := by
  fin_cases k <;> rfl

/-- An event that is due of itself is none that the outside alone times (log 26). -/
def DueOfItself (c : Instr) : Prop :=
  c.serviceCode = none ∧ c ≠ .coldReset ∧ c ≠ .resetEnd ∧ c ≠ .transactionBegin ∧ c ≠ .transactionEnd ∧
    c ≠ .windowDrivenLevel ∧ (∀ n, c ≠ .warmReset n) ∧ (∀ l, c ≠ .strapReadingComplete l) ∧
    (∀ d, c ≠ .arbitrationBitReading d) ∧ (∀ x y inp, c ≠ .characterReadBack x y inp) ∧
    (∀ inp, c ≠ .foreignEdgeOnFrame inp) ∧ (∀ x r, c ≠ .characterComplete x r) ∧
    (∀ x, c ≠ .decoderInputReleased x) ∧ (∀ g p r, c ≠ .countingWindowEnd g p r)

theorem ofItself_of_due {s : State} (h : s.cond = .running) {c : Instr} (hc : c ∈ due s) : DueOfItself c := by
  rw [mem_due_of_running h] at hc
  obtain hc | hc | hc | ⟨k, hc⟩ := hc
  · obtain ⟨_, rfl⟩ | ⟨_, _, rfl⟩ | ⟨_, _, _, rfl⟩ | ⟨_, _, _, _, rfl⟩ | ⟨_, _, rfl⟩ := mem_dueSchedule.mp hc <;>
      simp [DueOfItself, Instr.serviceCode]
  · obtain ⟨_, _, _, _, rfl⟩ | ⟨_, _, _, _, _, _, rfl⟩ | ⟨_, _, _, rfl⟩ | ⟨_, _, _, _, rfl⟩ | ⟨_, rfl⟩ := mem_dueWindow.mp hc <;>
      simp [DueOfItself, Instr.serviceCode]
  · obtain ⟨_, rfl⟩ | ⟨_, rfl⟩ | ⟨_, rfl⟩ | ⟨_, rfl⟩ | ⟨_, _, _, _, rfl⟩ | ⟨_, rfl⟩ := mem_dueLine.mp hc <;>
      simp [DueOfItself, Instr.serviceCode]
  · obtain ⟨_, _, rfl⟩ | ⟨_, rfl⟩ | ⟨_, rfl⟩ | ⟨_, rfl⟩ | ⟨_, rfl⟩ | ⟨_, rfl⟩ | ⟨_, _, _, rfl⟩ := mem_duePump.mp hc <;>
      simp [DueOfItself, Instr.serviceCode]

theorem due_of_still {s : State} (h : s.cond = .strapFault ∨ ∃ κ, s.cond = .reset κ) : due s = [] := by
  obtain h | ⟨κ, h⟩ := h <;> simp only [due, h]

theorem due_of_strapReading {s : State} (h : s.cond = .strapReading) :
    due s = if s.strapTime = 0 then [.strapReadingComplete s.strapPins] else [] := by
  simp only [due, h, dueIf, decide_eq_true_eq]

/-- Settles O2: the step on an empty queue, one microsecond in each condition, and the events due. -/
theorem emptyQueueRaisesDueEventsOrPassesTime : Obligations.EmptyQueueRaisesDueEventsOrPassesTime := by
  refine ⟨fun s hs => ⟨fun hd => ?_, fun hd => ?_⟩, fun s => ⟨fun h => ?_, advance_of_strapReading, advance_of_still⟩,
    fun s => ⟨due_of_still, due_of_strapReading, fun h => ?_⟩⟩
  · rw [step_of_empty hs, idle_of_nothing_due hd]
  · obtain ⟨c, hc, e⟩ := idle_of_due hd
    exact ⟨c, hc, by rw [step_of_empty hs, e]⟩
  · rw [advance_of_running h]
    refine ⟨RoundTimer.pass_eq _, rfl, fun hw => ?_, fun w hw => ?_, fun x hx => ?_, fun hx => ?_, fun c => ?_,
      CableCheck.pass_eq _, rfl, rfl, rfl, rfl, ⟨_, rfl⟩, fun k => ?_, fun k => ?_, rfl⟩
    · exact congrArg (Option.map _) hw
    · exact congrArg (Option.map _) hw
    · exact congrArg (Option.map _) hx
    · exact congrArg (Option.map _) hx
    · exact Line.pass_cable s.line c
    · exact tickPumps_getElem s.pumps k
    · exact tickPlayers_getElem s.players k
  · intro phase slot
    refine ⟨roundEnd_due h, settlePoint_due h, windowOpening_due h, fun inp => ?_, announcementTransmitBegin_due h, lastBitEnd_due h,
      fun inp => ?_, startTakenOrDropped_due h, windowEnd_due h, transmissionEnd_due h, fun c inp => ?_, fun c => ?_,
      checkComparisonTimeout_due h, checkPulseEnd_due h, fun k => ⟨primeSenseAsserted_due h k, primeTimerExpiry_due h k,
        feedbackDueExpiry_due h k, minimumRunExpiry_due h k, restTimerExpiry_due h k, runSecond_due h k, stepCompletion_due h k⟩,
      fun c hc => ofItself_of_due h hc⟩
    · rw [ownSlotStart_due h, State.announces_iff]
      constructor
      · rintro ⟨ha, ht, h₁, h₂, hi⟩
        exact ⟨hi, ht, h₁, h₂, ha⟩
      · rintro ⟨hi, ht, h₁, h₂, ha⟩
        exact ⟨ha, ht, h₁, h₂, hi⟩
    · rw [confirmationBegin_due h]
      constructor
      · rintro ⟨w, hw, ht, hh, hx, hcl, hi⟩
        exact ⟨hi, hx, hcl, w, hw, ht, hh⟩
      · rintro ⟨hi, hx, hcl, w, hw, ht, hh⟩
        exact ⟨w, hw, ht, hh, hx, hcl, hi⟩
    · rw [frameArrival_due h, CableState.arrivalDue_iff]
    · rw [frameTruncated_due h, CableState.overdue_iff]

end Sys2Proof.Machine
end
